-- ==== Sys2Proof/Word.lean ====
section
/-!
DEFINITION. The word types of the command port and of the registers (R8, R85, R110), and the command packet (R80).
-/

namespace Sys2Proof

/-- A word of the command port: 32 bits, bit 0 least significant (R8). -/
abbrev Word := BitVec 32

/-- A 64-bit value: a binary64 pattern, a `u64` counter, or a phase register of `PB` bits held zero-extended (R85, log 7). -/
abbrev DWord := BitVec 64

/-- An `F` datum: the bit pattern of an IEEE 754 binary32 value (R110, R111). -/
abbrev F := BitVec 32

/-- A `CF` datum: the bit pattern of an IEEE 754 binary64 value (R110). -/
abbrev CF := BitVec 64

/-- A command as the transport delivers it: the header word and the payload words delivered with it (R80). -/
structure Packet where
  header  : Word
  payload : List Word
  deriving DecidableEq, Repr

end Sys2Proof
end

