-- ==== Sys2Proof/Config.lean ====
section
/-!
DEFINITION. The implementation parameters of R7: the open ones as a record, the fixed ones as named constants; and the free
values, constants without a body of which nothing can be proved.
-/

namespace Sys2Proof

/-- The legal widths of a phase accumulator: `PB` is 32 or 64 (R7, D11). -/
inductive PhaseBits where
  | w32
  | w64
  deriving DecidableEq, Repr

/-- The number `PB`. -/
def PhaseBits.bits : PhaseBits → Nat
  | .w32 => 32
  | .w64 => 64

/-- The open parameters of R7, fixed for one machine. -/
structure Config where
  /-- `PB`, the width of every phase accumulator. -/
  phaseBits : PhaseBits
  /-- `N_RSMP`. -/
  nRsmp : Nat
  /-- `N_NCO`. -/
  nNco : Nat
  /-- `N_PLL`. -/
  nPll : Nat
  deriving DecidableEq, Repr

/-- The default values of R7: `PB = 32`, four of each unit. -/
def Config.standard : Config := { phaseBits := .w32, nRsmp := 4, nNco := 4, nPll := 4 }

/-- The counts lie in 1 .. 16 (R7). -/
def Config.valid (c : Config) : Bool :=
  decide (1 ≤ c.nRsmp ∧ c.nRsmp ≤ 16 ∧ 1 ≤ c.nNco ∧ c.nNco ≤ 16 ∧ 1 ≤ c.nPll ∧ c.nPll ≤ 16)

/-- The number `PB` of a configuration. -/
def Config.pb (c : Config) : Nat := c.phaseBits.bits

/-- `TB`, log2 of the length of the cosine table (R7). -/
def Config.tb : Nat := 12

/-- `FB = PB - TB`, the fraction bits of a phase below the table index (head of 42_nco.md). -/
def Config.fb (c : Config) : Nat := c.pb - Config.tb

/-- `MAX_PHASE_STEPS` (R7). -/
def Config.maxPhaseSteps : Nat := 1024

/-- `MAX_NTAPS` (R7). -/
def Config.maxNtaps : Nat := 1024

/-- `MAX_BANK` (R7). -/
def Config.maxBank : Nat := 65536

/-- `EVQ_DEPTH` (R7). -/
def Config.evqDepth : Nat := 16

/-- `LFSR_POLY` (R7, R123). -/
def Config.lfsrPoly : Word := 0x80200003#32

/-- `LFSR_SEED` (R7, R35). -/
def Config.lfsrSeed : Word := 0x00000001#32

/-- `PLL_KB0 = 62/100`, as numerator and denominator (R7, R215). -/
def Config.pllKb0 : Nat × Nat := (62, 100)

/-- `PLL_KZ = 7245/10000`, as numerator and denominator (R7, R215). -/
def Config.pllKz : Nat × Nat := (7245, 10000)

/-- `PLL_KAMP = 4` (R7, R216). -/
def Config.pllKamp : Nat := 4

/-- `PLL_KLOCK = 20` (R7, R217). -/
def Config.pllKlock : Nat := 20

/-- The identity word of R262, the ASCII bytes "S051". -/
def Config.idWord : Word := 0x53303531#32

/-- The major version of `SUB051-DSPCORE-1.0` (R262). -/
def Config.majorVersion : Nat := 1

/-- FREE VALUE (log 4): word `reg` of the registers that the `n`-th failed configuration of one unit leaves
unspecified (R147, R219). `unit` and `k` are the unit code and the instance index. -/
opaque Config.freeWord (unit k n reg : Nat) : Word

/-- FREE VALUE (log 4): the contents of a memory space that a failed configuration leaves unspecified (R147, U3). -/
opaque Config.freeWords (unit k n space : Nat) : List Word

/-- FREE VALUE (log 10): which of the two roundings of the ends of an enclosure is the rounding of the exact real, where
the enclosure, the quotient of `[lo, hi]` by `[dlo, dhi]`, does not decide it. -/
opaque Config.freeRoundsUp (lo hi dlo dhi : Int) : Bool

end Sys2Proof
end

