-- ==== Sys2Proof/Syntax.lean ====
section
/-!
DEFINITION. The 21 commands of R88 with the operands of R84 and R89, one constructor for each row of the opcode table.
-/

namespace Sys2Proof

/-- A command. `k` is the header field `INST` (R83); the other operands are the `ARG` subfields of R84 and the payload
operands of R89, in the order of R89. -/
inductive Instr where
  /-- CORE.NOP (R260) -/
  | coreNop
  /-- CORE.RESET (R261) -/
  | coreReset
  /-- CORE.ID (R262) -/
  | coreId
  /-- CORE.ERR (R263) -/
  | coreErr
  /-- RSMP.CREATE (R141); `phaseSteps` and `tapsPerPhase` are `s32` -/
  | rsmpCreate (k : BitVec 4) (phaseSteps tapsPerPhase : Word) (sampleRate cutoffHz : CF)
  /-- RSMP.DECIMATE (R154); the sample `next` is `(re, im)` -/
  | rsmpDecimate (k : BitVec 4) (distance re im : F)
  /-- RSMP.INTERPOLATE (R155) -/
  | rsmpInterpolate (k : BitVec 4) (distance re im : F)
  /-- RSMP.RESAMPLE (R156); `consumed` is the header bit `CIN` -/
  | rsmpResample (k : BitVec 4) (consumed : Bool) (distance re im : F)
  /-- RSMP.RDTAP (R158); `p` is `ARG[15:0]`, `i` the payload word -/
  | rsmpRdtap (k : BitVec 4) (p : BitVec 16) (i : Word)
  /-- NCO.SETFREQ (R181); `ip` is the header bit `IP`, `db` the field `DB` -/
  | ncoSetfreq (k : BitVec 4) (ip : Bool) (db : BitVec 6) (freq sampleRate : CF)
  /-- NCO.NEXTPHASE (R186) -/
  | ncoNextphase (k : BitVec 4)
  /-- NCO.GET (R188) -/
  | ncoGet (k : BitVec 4)
  /-- NCO.GETIQ (R189) -/
  | ncoGetiq (k : BitVec 4)
  /-- NCO.NEXT (R190) -/
  | ncoNext (k : BitVec 4)
  /-- NCO.NEXTIQ (R191) -/
  | ncoNextiq (k : BitVec 4)
  /-- PLL.CONFIGURE (R211); `even` is the header bit `EVEN`, `var` the field `VAR` -/
  | pllConfigure (k : BitVec 4) (even : Bool) (var : BitVec 2) (freq bandwidth minsignal : CF)
  /-- PLL.PROCESS (R220) -/
  | pllProcess (k : BitVec 4) (sample : F)
  /-- PLL.LOCKED (R232) -/
  | pllLocked (k : BitVec 4)
  /-- PLL.PILOTLEVEL (R233) -/
  | pllPilotlevel (k : BitVec 4)
  /-- PLL.GETOUT (R234) -/
  | pllGetout (k : BitVec 4)
  /-- PLL.EVDRAIN (R235) -/
  | pllEvdrain (k : BitVec 4)
  deriving DecidableEq, Repr

/-- The pseudo-instruction `nop` (R105). -/
def Instr.nop : Instr := .coreNop

/-- The pseudo-instruction `rsmp.decimate.r`: a real sample is sent with imaginary part `+0.0` (R105, R119). -/
def Instr.rsmpDecimateReal (k : BitVec 4) (distance x : F) : Instr := .rsmpDecimate k distance x 0#32

/-- The pseudo-instruction `rsmp.interpolate.r` (R105, R119). -/
def Instr.rsmpInterpolateReal (k : BitVec 4) (distance x : F) : Instr := .rsmpInterpolate k distance x 0#32

/-- The pseudo-instruction `rsmp.resample.r` (R105, R119). -/
def Instr.rsmpResampleReal (k : BitVec 4) (consumed : Bool) (distance x : F) : Instr :=
  .rsmpResample k consumed distance x 0#32

end Sys2Proof
end

