-- ==== Sys2Proof/WellFormed.lean ====
section
/-!
DEFINITION. The terms of `Instr` that are commands. Every operand field has the width the header or payload gives it, so the
one value to refuse is the reserved output projection of PLL.CONFIGURE (R84, R90 (e)).
-/

namespace Sys2Proof

/-- A projection code of PLL.CONFIGURE is 0 Simple, 1 Stereo or 2 RDS; 3 is reserved (R84). -/
def variantLegal (var : BitVec 2) : Bool := var != 3#2

/-- The term is one of the 21 commands with legal operand fields. -/
def Instr.wellFormed : Instr → Bool
  | .coreNop => true
  | .coreReset => true
  | .coreId => true
  | .coreErr => true
  | .rsmpCreate _ _ _ _ _ => true
  | .rsmpDecimate _ _ _ _ => true
  | .rsmpInterpolate _ _ _ _ => true
  | .rsmpResample _ _ _ _ _ => true
  | .rsmpRdtap _ _ _ => true
  | .ncoSetfreq _ _ _ _ _ => true
  | .ncoNextphase _ => true
  | .ncoGet _ => true
  | .ncoGetiq _ => true
  | .ncoNext _ => true
  | .ncoNextiq _ => true
  | .pllConfigure _ _ var _ _ _ => variantLegal var
  | .pllProcess _ _ => true
  | .pllLocked _ => true
  | .pllPilotlevel _ => true
  | .pllGetout _ => true
  | .pllEvdrain _ => true

end Sys2Proof
end

