-- ==== Sys2Proof/Decode.lean ====
section
/-!
DEFINITION. The decoder of R87 over command packets, total, rejecting by name; the encoder written from the same tables
(R81, R84, R88, R89); and the byte form of words on a byte-wide transport (R67).
-/

namespace Sys2Proof

/-- The rows of R88: a command is selected by `UNIT` and `OP` alone (R87). -/
inductive Opcode where
  | coreNop | coreReset | coreId | coreErr
  | rsmpCreate | rsmpDecimate | rsmpInterpolate | rsmpResample | rsmpRdtap
  | ncoSetfreq | ncoNextphase | ncoGet | ncoGetiq | ncoNext | ncoNextiq
  | pllConfigure | pllProcess | pllLocked | pllPilotlevel | pllGetout | pllEvdrain
  deriving DecidableEq, Repr

/-- Why a packet is none of the 21 commands; each is IllegalCommand on the port (R90, R274). -/
inductive DecodeError where
  /-- `UNIT` in 4 .. 15: R90 (a) -/
  | reservedUnit
  /-- an `OP` not listed for the unit: R90 (b) -/
  | unknownOp
  /-- a reserved `ARG` bit set, or `INST` not 0 on a CORE command: R90 (c), (d) -/
  | reservedBits
  /-- `VAR = 3` in PLL.CONFIGURE: R90 (e) -/
  | reservedVariant
  /-- a payload word count different from `NPAY`: R90 (f) -/
  | payloadCount
  deriving DecidableEq, Repr

/-- What the decoder answers. -/
inductive Decoded where
  | command (i : Instr)
  | illegal (e : DecodeError)
  deriving DecidableEq, Repr

/-! ## Header fields (R81) -/

/-- `UNIT`, bits 31:28. -/
def hdrUnit (h : Word) : BitVec 4 := h.extractLsb' 28 4

/-- `INST`, bits 27:24. -/
def hdrInst (h : Word) : BitVec 4 := h.extractLsb' 24 4

/-- `OP`, bits 23:16. -/
def hdrOp (h : Word) : BitVec 8 := h.extractLsb' 16 8

/-- `ARG`, bits 15:0. -/
def hdrArg (h : Word) : BitVec 16 := h.extractLsb' 0 16

/-- `CIN`, `ARG` bit 0 of RSMP.RESAMPLE (R84). -/
def argCin (h : Word) : Bool := h.getLsbD 0

/-- `DB`, `ARG` bits 5:0 of NCO.SETFREQ (R84). -/
def argDb (h : Word) : BitVec 6 := h.extractLsb' 0 6

/-- `IP`, `ARG` bit 8 of NCO.SETFREQ (R84). -/
def argIp (h : Word) : Bool := h.getLsbD 8

/-- `VAR`, `ARG` bits 1:0 of PLL.CONFIGURE (R84). -/
def argVar (h : Word) : BitVec 2 := h.extractLsb' 0 2

/-- `EVEN`, `ARG` bit 8 of PLL.CONFIGURE (R84). -/
def argEven (h : Word) : Bool := h.getLsbD 8

/-! ## The opcode map (R88, R89) -/

/-- The CORE row of an `OP` value. -/
def coreOpcode : Nat → Option Opcode
  | 0x00 => some .coreNop
  | 0x01 => some .coreReset
  | 0x02 => some .coreId
  | 0x03 => some .coreErr
  | _ => none

/-- The RSMP row of an `OP` value. -/
def rsmpOpcode : Nat → Option Opcode
  | 0x01 => some .rsmpCreate
  | 0x02 => some .rsmpDecimate
  | 0x03 => some .rsmpInterpolate
  | 0x04 => some .rsmpResample
  | 0x05 => some .rsmpRdtap
  | _ => none

/-- The NCO row of an `OP` value. -/
def ncoOpcode : Nat → Option Opcode
  | 0x01 => some .ncoSetfreq
  | 0x02 => some .ncoNextphase
  | 0x03 => some .ncoGet
  | 0x04 => some .ncoGetiq
  | 0x05 => some .ncoNext
  | 0x06 => some .ncoNextiq
  | _ => none

/-- The PLL row of an `OP` value. -/
def pllOpcode : Nat → Option Opcode
  | 0x01 => some .pllConfigure
  | 0x02 => some .pllProcess
  | 0x03 => some .pllLocked
  | 0x04 => some .pllPilotlevel
  | 0x05 => some .pllGetout
  | 0x06 => some .pllEvdrain
  | _ => none

/-- Steps 1 and 2 of R87: the row of a header by `UNIT` and `OP`, `UNIT` first. -/
def lookupOpcode (h : Word) : Except DecodeError Opcode :=
  let inUnit (o : Option Opcode) : Except DecodeError Opcode :=
    match o with
    | some op => .ok op
    | none => .error .unknownOp
  match (hdrUnit h).toNat with
  | 0 => inUnit (coreOpcode (hdrOp h).toNat)
  | 1 => inUnit (rsmpOpcode (hdrOp h).toNat)
  | 2 => inUnit (ncoOpcode (hdrOp h).toNat)
  | 3 => inUnit (pllOpcode (hdrOp h).toNat)
  | _ => .error .reservedUnit

/-- The header bits of a row that must be 0: the reserved `ARG` bits of R84 and, for CORE, `INST` (R83, R87). -/
def Opcode.zeroBits : Opcode → Word
  | .coreNop | .coreReset | .coreId | .coreErr => 0x0F00FFFF#32
  | .rsmpCreate | .rsmpDecimate | .rsmpInterpolate => 0x0000FFFF#32
  | .rsmpResample => 0x0000FFFE#32
  | .rsmpRdtap => 0x00000000#32
  | .ncoSetfreq => 0x0000FEC0#32
  | .ncoNextphase | .ncoGet | .ncoGetiq | .ncoNext | .ncoNextiq => 0x0000FFFF#32
  | .pllConfigure => 0x0000FEFC#32
  | .pllProcess | .pllLocked | .pllPilotlevel | .pllGetout | .pllEvdrain => 0x0000FFFF#32

/-- `NPAY` of R89. -/
def Opcode.npay : Opcode → Nat
  | .coreNop | .coreReset | .coreId | .coreErr => 0
  | .rsmpCreate => 6
  | .rsmpDecimate | .rsmpInterpolate | .rsmpResample => 3
  | .rsmpRdtap => 1
  | .ncoSetfreq => 4
  | .ncoNextphase | .ncoGet | .ncoGetiq | .ncoNext | .ncoNextiq => 0
  | .pllConfigure => 6
  | .pllProcess => 1
  | .pllLocked | .pllPilotlevel | .pllGetout | .pllEvdrain => 0

/-- A 64-bit operand from its two words, the low word first (R67, R85). -/
def joinWords (lo hi : Word) : BitVec 64 := hi ++ lo

/-- The low word of a 64-bit value, sent first (R67, R85). -/
def lowWord (v : BitVec 64) : Word := v.extractLsb' 0 32

/-- The high word of a 64-bit value, sent second (R67, R85). -/
def highWord (v : BitVec 64) : Word := v.extractLsb' 32 32

/-- The operands of a row from its header and payload (R84, R89); `none` when the payload count is not `NPAY`. -/
def assemble (op : Opcode) (h : Word) (payload : List Word) : Option Instr :=
  let k := hdrInst h
  match op, payload with
  | .coreNop, [] => some .coreNop
  | .coreReset, [] => some .coreReset
  | .coreId, [] => some .coreId
  | .coreErr, [] => some .coreErr
  | .rsmpCreate, [n, t, r0, r1, c0, c1] => some (.rsmpCreate k n t (joinWords r0 r1) (joinWords c0 c1))
  | .rsmpDecimate, [d, re, im] => some (.rsmpDecimate k d re im)
  | .rsmpInterpolate, [d, re, im] => some (.rsmpInterpolate k d re im)
  | .rsmpResample, [d, re, im] => some (.rsmpResample k (argCin h) d re im)
  | .rsmpRdtap, [i] => some (.rsmpRdtap k (hdrArg h) i)
  | .ncoSetfreq, [f0, f1, r0, r1] =>
      some (.ncoSetfreq k (argIp h) (argDb h) (joinWords f0 f1) (joinWords r0 r1))
  | .ncoNextphase, [] => some (.ncoNextphase k)
  | .ncoGet, [] => some (.ncoGet k)
  | .ncoGetiq, [] => some (.ncoGetiq k)
  | .ncoNext, [] => some (.ncoNext k)
  | .ncoNextiq, [] => some (.ncoNextiq k)
  | .pllConfigure, [f0, f1, b0, b1, m0, m1] =>
      some (.pllConfigure k (argEven h) (argVar h) (joinWords f0 f1) (joinWords b0 b1) (joinWords m0 m1))
  | .pllProcess, [x] => some (.pllProcess k x)
  | .pllLocked, [] => some (.pllLocked k)
  | .pllPilotlevel, [] => some (.pllPilotlevel k)
  | .pllGetout, [] => some (.pllGetout k)
  | .pllEvdrain, [] => some (.pllEvdrain k)
  | _, _ => none

/-- The decoder, steps 1 to 4 of R87 in order; step 5, the check of `INST` against the instance count, needs the machine's
state and stands in the meanings (`onRsmp`, `onNco`, `onPll`). -/
def decode (p : Packet) : Decoded :=
  match lookupOpcode p.header with
  | .error e => .illegal e
  | .ok op =>
    if p.header &&& op.zeroBits ≠ 0#32 then .illegal .reservedBits
    else if op = .pllConfigure ∧ argVar p.header = 3#2 then .illegal .reservedVariant
    else
      match assemble op p.header p.payload with
      | some i => .command i
      | none => .illegal .payloadCount

/-! ## The encoder -/

/-- A header from its four fields (R81). -/
def mkHeader (unit inst : BitVec 4) (op : BitVec 8) (arg : BitVec 16) : Word := unit ++ inst ++ op ++ arg

/-- `ARG` of RSMP.RESAMPLE (R84). -/
def argOfCin (cin : Bool) : BitVec 16 := 0#15 ++ BitVec.ofBool cin

/-- `ARG` of NCO.SETFREQ (R84). -/
def argOfSetfreq (ip : Bool) (db : BitVec 6) : BitVec 16 := 0#7 ++ BitVec.ofBool ip ++ 0#2 ++ db

/-- `ARG` of PLL.CONFIGURE (R84). -/
def argOfConfigure (even : Bool) (var : BitVec 2) : BitVec 16 := 0#7 ++ BitVec.ofBool even ++ 0#6 ++ var

/-- The words of a 64-bit operand in sending order (R67). -/
def dwordWords (v : BitVec 64) : List Word := [lowWord v, highWord v]

/-- The words of a command (R80, R81, R84, R88, R89). -/
def encode : Instr → Packet
  | .coreNop => ⟨mkHeader 0#4 0#4 0x00#8 0#16, []⟩
  | .coreReset => ⟨mkHeader 0#4 0#4 0x01#8 0#16, []⟩
  | .coreId => ⟨mkHeader 0#4 0#4 0x02#8 0#16, []⟩
  | .coreErr => ⟨mkHeader 0#4 0#4 0x03#8 0#16, []⟩
  | .rsmpCreate k n t rate cutoff =>
      ⟨mkHeader 1#4 k 0x01#8 0#16, [n, t] ++ dwordWords rate ++ dwordWords cutoff⟩
  | .rsmpDecimate k d re im => ⟨mkHeader 1#4 k 0x02#8 0#16, [d, re, im]⟩
  | .rsmpInterpolate k d re im => ⟨mkHeader 1#4 k 0x03#8 0#16, [d, re, im]⟩
  | .rsmpResample k cin d re im => ⟨mkHeader 1#4 k 0x04#8 (argOfCin cin), [d, re, im]⟩
  | .rsmpRdtap k p i => ⟨mkHeader 1#4 k 0x05#8 p, [i]⟩
  | .ncoSetfreq k ip db freq rate =>
      ⟨mkHeader 2#4 k 0x01#8 (argOfSetfreq ip db), dwordWords freq ++ dwordWords rate⟩
  | .ncoNextphase k => ⟨mkHeader 2#4 k 0x02#8 0#16, []⟩
  | .ncoGet k => ⟨mkHeader 2#4 k 0x03#8 0#16, []⟩
  | .ncoGetiq k => ⟨mkHeader 2#4 k 0x04#8 0#16, []⟩
  | .ncoNext k => ⟨mkHeader 2#4 k 0x05#8 0#16, []⟩
  | .ncoNextiq k => ⟨mkHeader 2#4 k 0x06#8 0#16, []⟩
  | .pllConfigure k even var freq bw minsig =>
      ⟨mkHeader 3#4 k 0x01#8 (argOfConfigure even var), dwordWords freq ++ dwordWords bw ++ dwordWords minsig⟩
  | .pllProcess k x => ⟨mkHeader 3#4 k 0x02#8 0#16, [x]⟩
  | .pllLocked k => ⟨mkHeader 3#4 k 0x03#8 0#16, []⟩
  | .pllPilotlevel k => ⟨mkHeader 3#4 k 0x04#8 0#16, []⟩
  | .pllGetout k => ⟨mkHeader 3#4 k 0x05#8 0#16, []⟩
  | .pllEvdrain k => ⟨mkHeader 3#4 k 0x06#8 0#16, []⟩

/-- The row a command belongs to. -/
def Instr.opcode : Instr → Opcode
  | .coreNop => .coreNop
  | .coreReset => .coreReset
  | .coreId => .coreId
  | .coreErr => .coreErr
  | .rsmpCreate _ _ _ _ _ => .rsmpCreate
  | .rsmpDecimate _ _ _ _ => .rsmpDecimate
  | .rsmpInterpolate _ _ _ _ => .rsmpInterpolate
  | .rsmpResample _ _ _ _ _ => .rsmpResample
  | .rsmpRdtap _ _ _ => .rsmpRdtap
  | .ncoSetfreq _ _ _ _ _ => .ncoSetfreq
  | .ncoNextphase _ => .ncoNextphase
  | .ncoGet _ => .ncoGet
  | .ncoGetiq _ => .ncoGetiq
  | .ncoNext _ => .ncoNext
  | .ncoNextiq _ => .ncoNextiq
  | .pllConfigure _ _ _ _ _ _ => .pllConfigure
  | .pllProcess _ _ => .pllProcess
  | .pllLocked _ => .pllLocked
  | .pllPilotlevel _ => .pllPilotlevel
  | .pllGetout _ => .pllGetout
  | .pllEvdrain _ => .pllEvdrain

/-! ## A byte-wide transport (R67) -/

/-- A word as bytes, least significant byte first (R67). -/
def wordBytes (w : Word) : List (BitVec 8) :=
  [w.extractLsb' 0 8, w.extractLsb' 8 8, w.extractLsb' 16 8, w.extractLsb' 24 8]

/-- A sequence of words as bytes (R67). -/
def bytesOfWords (ws : List Word) : List (BitVec 8) := ws.flatMap wordBytes

/-- The words carried by a sequence of bytes (R67); `none` when the bytes are no whole number of words. -/
def wordsOfBytes : List (BitVec 8) → Option (List Word)
  | [] => some []
  | b0 :: b1 :: b2 :: b3 :: rest => (wordsOfBytes rest).map fun ws => (b3 ++ b2 ++ b1 ++ b0) :: ws
  | _ => none

/-! ## Instructions as numbered by the opcode table -/

/-- The number of payload words the header asks for; 0 where the header is no command (R89). -/
def payloadCount (h : Word) : Nat :=
  match lookupOpcode h with
  | .ok op => op.npay
  | .error _ => 0

/-- The packet whose bits are `w`, bit 0 the least significant bit of the header, bits 32 and up the payload words in
order; bits from `nbits` up are 0, and the payload has the words the header asks for, or those `nbits` covers when they
are more (log 2). -/
def packetOfBits (nbits w : Nat) : Packet :=
  let v := w % 2 ^ nbits
  let h := BitVec.ofNat 32 v
  let n := max (payloadCount h) ((nbits + 31) / 32 - 1)
  ⟨h, (List.range n).map fun j => BitVec.ofNat 32 (v / 2 ^ (32 * (j + 1)))⟩

/-- The instruction the decoder reads from the bits `w` of a row of `nbits` bits. -/
def decodeTableWord (nbits w : Nat) : Option Instr :=
  match decode (packetOfBits nbits w) with
  | .command i => some i
  | .illegal _ => none

end Sys2Proof
end

