-- ==== Sys2Proof/Machine/State.lean ====
section
/-!
DEFINITION. The state of the core (R20), with the command port that drives it; the reset values of R57.
-/

namespace Sys2Proof.Machine

/-- Why the machine stops. -/
inductive Fault where
  /-- Raised by an element read or write of a memory space at an index outside the space, which R60 leaves without a
  meaning. R79 says that no command forms such an index; it needs a state that breaks the invariants of R23 to R28. Safe:
  the model stops where the spec says nothing. -/
  | elementOutOfRange
  deriving DecidableEq, Repr

/-- Why the model gives a command no meaning. -/
inductive Refusal where
  /-- Raised by no arm of `exec`: every command has its meaning. Safe: it would stop the run. -/
  | notModelled (mnemonic : String)
  deriving DecidableEq, Repr

/-- The error codes of R270. -/
inductive ErrorCode where
  | invalidConfiguration
  | illegalCommand
  | badInstance
  | notConfigured
  | badOperand
  | phaseRange
  | numericOverflow
  | badIndex
  deriving DecidableEq, Repr

/-- A memory space of R60: its elements in index order (log 8). -/
abbrev Memory (α : Type) := List α

/-- The canonical form of a space of `n` elements: exactly one entry for each index. -/
def Memory.wf {α : Type} (m : Memory α) (n : Nat) : Bool := m.length == n

/-- A complex sample `(re, im)` (R119). -/
structure Cplx where
  re : F
  im : F
  deriving DecidableEq, Repr

/-- The complex zero `(+0.0, +0.0)` that a create writes into the ring (R146). -/
def Cplx.zero : Cplx := ⟨0#32, 0#32⟩

/-- The state of one RSMP unit (section 3 of 10_state.md). -/
structure Rsmp where
  /-- `CFG_VALID` (R23) -/
  cfgValid : Bool
  /-- `PHASE_STEPS` (R24) -/
  phaseSteps : BitVec 16
  /-- `NTAPS` (R25) -/
  ntaps : BitVec 16
  /-- `WPOS` (R26) -/
  wpos : BitVec 16
  /-- `TAPS` (R27, R62) -/
  taps : Memory F
  /-- `RING` (R28, R63) -/
  ring : Memory Cplx
  /-- the model's own counter of free values (log 4) -/
  freeIx : Nat
  deriving DecidableEq, Repr

/-- The state of one NCO unit (section 4 of 10_state.md). The three `PB`-bit registers are held zero-extended (log 7). -/
structure Nco where
  /-- `CFG_VALID` (R30) -/
  cfgValid : Bool
  /-- `PHASE` (R31) -/
  phase : DWord
  /-- `INC` (R32) -/
  inc : DWord
  /-- `DITHER_BITS` (R33) -/
  ditherBits : BitVec 6
  /-- `INT_PHASE` (R34) -/
  intPhase : Bool
  /-- `LFSR` (R35) -/
  lfsr : Word
  /-- `DPHASE` (R36) -/
  dphase : DWord
  deriving DecidableEq, Repr

/-- `VARIANT`, the output projection (R38, R221); the code 3 is illegal and cannot be held (log 16). -/
inductive Variant where
  | simple
  | stereo
  | rds
  deriving DecidableEq, Repr

/-- The output vector `OUT`, whose shape depends on `VARIANT` (R50, R221). -/
inductive OutVec where
  | simple (sin cos : F)
  | stereo (sin cos sin2 cos2 : F)
  | rds (sin cos : F) (phase : DWord)
  deriving DecidableEq, Repr

/-- A record of the event queue (R51, R229). -/
structure EventRecord where
  index       : Word
  sampleCount : DWord
  blockPos    : Word
  deriving DecidableEq, Repr

/-- The state of one PLL unit, the LoopState (section 5 of 10_state.md). -/
structure Pll where
  /-- `CFG_VALID` (R38) -/
  cfgValid : Bool
  /-- `VARIANT` (R38) -/
  variant : Variant
  /-- `EVEN` (R38) -/
  even : Bool
  /-- `FREQ0` (R39) -/
  freq0 : F
  /-- `MINFREQ` (R39) -/
  minfreq : F
  /-- `MAXFREQ` (R39) -/
  maxfreq : F
  /-- `MINSIGNAL` (R39) -/
  minsignal : F
  /-- `OSC0.c` (R40) -/
  osc0c : F
  /-- `OSC0.s` (R40) -/
  osc0s : F
  /-- `OSC1.c` (R40) -/
  osc1c : F
  /-- `OSC1.s` (R40) -/
  osc1s : F
  /-- `LF_B0` (R41) -/
  lfB0 : F
  /-- `LF_B1` (R41) -/
  lfB1 : F
  /-- `AMP_K` (R41) -/
  ampK : F
  /-- `LOCK_DELAY` (R42) -/
  lockDelay : Word
  /-- `PHASE` (R43), held zero-extended (log 7) -/
  phase : DWord
  /-- `FREQ` (R44) -/
  freq : F
  /-- `PS` (R45) -/
  ps : F
  /-- `PC` (R45) -/
  pc : F
  /-- `LF_X1` (R46) -/
  lfX1 : F
  /-- `PILOT` (R47) -/
  pilot : F
  /-- `LOCK_CNT` (R48) -/
  lockCnt : Word
  /-- `PERIOD_IDX` (R49) -/
  periodIdx : Word
  /-- `SAMPLE_CNT` (R49) -/
  sampleCnt : DWord
  /-- `BLOCK_POS` (R49) -/
  blockPos : Word
  /-- `OUT` (R50) -/
  out : OutVec
  /-- `EVQ`, oldest record first (R51, R64) -/
  evq : Memory EventRecord
  /-- `EV_OVF` (R51) -/
  evOvf : Bool
  /-- the model's own counter of free values (log 4) -/
  freeIx : Nat
  deriving DecidableEq, Repr

/-- What the platform can present to the core between two commands (R80, R300). -/
inductive PortEvent where
  /-- a command, delivered whole -/
  | command (p : Packet)
  /-- the hardware reset input is asserted (R300 (a), log 5) -/
  | hardwareReset
  deriving DecidableEq, Repr

/-- The whole machine (R20) and its command port. -/
structure State where
  /-- the build parameters (R7), constant (log 6) -/
  cfg : Config
  /-- `RSMP[k]`, `k` the position (R20) -/
  rsmp : List Rsmp
  /-- `NCO[k]` -/
  nco : List Nco
  /-- `PLL[k]` -/
  pll : List Pll
  /-- `CORE.ERRFLAGS` (R55) -/
  errFlags : Word
  /-- the events on the port that the core has not yet taken, oldest first (R70, log 2) -/
  input : List PortEvent
  /-- the words of the latest response, status word first; none before the first (R80, log 2) -/
  response : List Word
  deriving DecidableEq, Repr

/-! ## Reset values (R57) -/

/-- An RSMP unit after reset (R57, log 1); the free value counter is the model's own. -/
def Rsmp.reset (freeIx : Nat) : Rsmp :=
  { cfgValid := false, phaseSteps := 0#16, ntaps := 0#16, wpos := 0#16, taps := [], ring := [], freeIx := freeIx }

/-- An NCO unit after reset (R57). -/
def Nco.reset : Nco :=
  { cfgValid := false, phase := 0#64, inc := 0#64, ditherBits := 0#6, intPhase := false, lfsr := Config.lfsrSeed,
    dphase := 0#64 }

/-- A PLL unit after reset: `CFG_VALID` and `EVQ` by R57, every other register by log 1. -/
def Pll.reset (freeIx : Nat) : Pll :=
  { cfgValid := false, variant := .simple, even := false, freq0 := 0#32, minfreq := 0#32, maxfreq := 0#32,
    minsignal := 0#32, osc0c := 0#32, osc0s := 0#32, osc1c := 0#32, osc1s := 0#32, lfB0 := 0#32, lfB1 := 0#32,
    ampK := 0#32, lockDelay := 0#32, phase := 0#64, freq := 0#32, ps := 0#32, pc := 0#32, lfX1 := 0#32,
    pilot := 0#32, lockCnt := 0#32, periodIdx := 0#32, sampleCnt := 0#64, blockPos := 0#32,
    out := .simple 0#32 0#32, evq := [], evOvf := false, freeIx := freeIx }

/-- The machine of parameters `c` right after reset, no event on the port and no response sent (R57, R301). -/
def State.initial (c : Config) : State :=
  { cfg := c, rsmp := List.replicate c.nRsmp (Rsmp.reset 0), nco := List.replicate c.nNco Nco.reset,
    pll := List.replicate c.nPll (Pll.reset 0), errFlags := 0#32, input := [], response := [] }

/-- The machine right after reset, at the default parameters of R7. -/
def State.reset : State := State.initial Config.standard

end Sys2Proof.Machine
end

