-- ==== Sys2Proof/Machine/Float32.lean ====
section
/-!
DEFINITION. The arithmetic of `F`, IEEE 754 binary32 (R110 to R116), on bit patterns. Every finite `F` value is a whole
number of units of 2^-149, so exact values are integers and a result is rounded once from an exact quotient.
-/

namespace Sys2Proof.Machine

/-! ## The encoding (R111) -/

/-- The sign bit. -/
def fSign (a : F) : Bool := a.getLsbD 31

/-- The exponent field, bits 30:23. -/
def fExp (a : F) : Nat := (a.extractLsb' 23 8).toNat

/-- The fraction field, bits 22:0. -/
def fFrac (a : F) : Nat := (a.extractLsb' 0 23).toNat

/-- `isnan` (R111, R115). -/
def fIsNaN (a : F) : Bool := fExp a == 255 && fFrac a != 0

/-- The pattern is an infinity (R111). -/
def fIsInf (a : F) : Bool := fExp a == 255 && fFrac a == 0

/-- `isfinite` (R111, R115). -/
def fIsFinite (a : F) : Bool := fExp a != 255

/-- The pattern is a signed zero (R111). -/
def fIsZero (a : F) : Bool := fExp a == 0 && fFrac a == 0

/-- `+0.0` -/
def fZero : F := 0x00000000#32

/-- `-0.0` -/
def fNegZero : F := 0x80000000#32

/-- `0.5` -/
def fHalf : F := 0x3F000000#32

/-- `1.0` -/
def fOne : F := 0x3F800000#32

/-- `1.5` -/
def fOneHalf : F := 0x3FC00000#32

/-- `2.0` -/
def fTwo : F := 0x40000000#32

/-- The canonical quiet NaN (R111, R114). -/
def fNaN : F := 0x7FC00000#32

/-- `|val(a)|` in units of 2^-149 (R111). An infinity counts as 2^128, which places it beyond every finite value. -/
def fMag (a : F) : Nat :=
  if fExp a = 0 then fFrac a else (2 ^ 23 + fFrac a) * 2 ^ (fExp a - 1)

/-- `val(a)` in units of 2^-149 (R11, R111). -/
def fScaled (a : F) : Int := if fSign a then -(fMag a : Int) else fMag a

/-! ## Rounding (R112) -/

/-- The integer nearest to `n / d`, ties to even. -/
def roundHalfEven (n d : Nat) : Nat :=
  let q := n / d
  let r := n % d
  if d < 2 * r ∨ (2 * r = d ∧ q % 2 = 1) then q + 1 else q

/-- The bits 30:0 of `rnd_F` of the magnitude `n / d`, in units of 2^-149. The kept fraction has 24 bits, so a magnitude of
`2^(23+k)` units or more is rounded to a multiple of `2^k` units; a carry out of the fraction moves into the exponent field,
and a magnitude that rounds to 2^128 or more is an infinity (R112). -/
def rndMag (n d : Nat) : Nat :=
  let k := Nat.log2 (n / d) - 23
  min (k * 2 ^ 23 + roundHalfEven n (d * 2 ^ k)) 0x7F800000

/-- `rnd_F` of the real `n / d` times 2^-149, `d > 0`: `+0.0` for 0, and a non-zero real keeps its sign (R112). -/
def rndUnits (n : Int) (d : Nat) : F :=
  if n = 0 then fZero
  else BitVec.ofNat 32 ((if n < 0 then 2 ^ 31 else 0) + rndMag n.natAbs d)

/-- `rnd_F(n / d)` for integers, `d > 0` (R112). -/
def rndF (n : Int) (d : Nat) : F := rndUnits (n * 2 ^ 149) d

/-! ## Operations (R113, R114) -/

/-- `fneg`: flips bit 31 of every pattern (R113). -/
def fneg (a : F) : F := a ^^^ fNegZero

/-- An infinity of the given sign. -/
def fInf (neg : Bool) : F := if neg then 0xFF800000#32 else 0x7F800000#32

/-- A zero of the given sign. -/
def fSignedZero (neg : Bool) : F := if neg then fNegZero else fZero

/-- `fadd` (R113, R114). An exact zero sum is `-0.0` only when both operands are `-0.0`. -/
def fadd (a b : F) : F :=
  if fIsNaN a || fIsNaN b then fNaN
  else if fIsInf a then (if fIsInf b && (fSign a != fSign b) then fNaN else a)
  else if fIsInf b then b
  else
    let s := fScaled a + fScaled b
    if s = 0 then fSignedZero (fSign a && fSign b) else rndUnits s 1

/-- `fsub`: the sum with the negated operand, which gives every case of R113 and R114 (log 23). -/
def fsub (a b : F) : F := fadd a (fneg b)

/-- `fmul` (R113, R114). -/
def fmul (a b : F) : F :=
  if fIsNaN a || fIsNaN b then fNaN
  else if (fIsInf a && fIsZero b) || (fIsZero a && fIsInf b) then fNaN
  else if fIsInf a || fIsInf b then fInf (fSign a != fSign b)
  else
    let p := fScaled a * fScaled b
    if p = 0 then fSignedZero (fSign a != fSign b) else rndUnits p (2 ^ 149)

/-! ## Comparisons (R115) -/

/-- `a >=_F b` -/
def fge (a b : F) : Bool := !fIsNaN a && !fIsNaN b && decide (fScaled b ≤ fScaled a)

/-- `a >_F b` -/
def fgt (a b : F) : Bool := !fIsNaN a && !fIsNaN b && decide (fScaled b < fScaled a)

/-- `a <_F b` -/
def flt (a b : F) : Bool := fgt b a

/-- `a =_F b` -/
def feq (a b : F) : Bool := !fIsNaN a && !fIsNaN b && decide (fScaled a = fScaled b)

/-! ## Conversions (R116, R118, R124) -/

/-- `itof(n)` (R116). -/
def itof (n : Nat) : F := rndF n 1

/-- `floor_F(a)` for a finite `a` (R116); not evaluated on another pattern by any command (log 14). -/
def floorF (a : F) : Int := fScaled a / 2 ^ 149

/-- `rha(n / d)`, `d > 0`: the nearest integer, ties away from zero (R118). -/
def rha (n : Int) (d : Nat) : Int :=
  if 0 ≤ n then (2 * n + d) / (2 * d) else -((2 * -n + d) / (2 * d))

/-- `phase_frac(fr) = rnd_F(fr / 2^fb)` (R124 (a)). -/
def phaseFrac (fb fr : Nat) : F := rndF fr (2 ^ fb)

/-- `cyc2inc(v) = rha(val(v) * 2^PB)` (R124 (b)), for a finite `v` (log 14). -/
def cyc2inc (pb : Nat) (v : F) : Int := rha (fScaled v * 2 ^ pb) (2 ^ 149)

end Sys2Proof.Machine
end

