-- ==== Sys2Proof/Machine/Operands.lean ====
section
/-!
DEFINITION. Operand and result assembly (R85): configuration operands read as exact rationals (R117), phase registers of `PB`
bits (R121), the dither generator (R123), result words.
-/

namespace Sys2Proof.Machine

/-! ## Configuration operands (R117) -/

/-- The exponent field of a binary64 pattern. -/
def cfExp (c : CF) : Nat := (c.extractLsb' 52 11).toNat

/-- The fraction field of a binary64 pattern. -/
def cfFrac (c : CF) : Nat := (c.extractLsb' 0 52).toNat

/-- A `CF` operand is usable when it is finite (R117). -/
def cfUsable (c : CF) : Bool := cfExp c != 2047

/-- `val(c)` of a usable operand in units of 2^-1074; both zeros give 0 (R117). -/
def cfScaled (c : CF) : Int :=
  let m : Nat := if cfExp c = 0 then cfFrac c else (2 ^ 52 + cfFrac c) * 2 ^ (cfExp c - 1)
  if c.getLsbD 63 then -(m : Int) else m

/-- The number of units of `cfScaled` in 1. -/
def cfOne : Nat := 2 ^ 1074

/-! ## Phase registers (R121, R31, R43) -/

/-- The sum of two phases modulo 2^PB, by unsigned overflow (R121). -/
def phaseAdd (pb : Nat) (a b : DWord) : DWord := BitVec.ofNat 64 ((a.toNat + b.toNat) % 2 ^ pb)

/-- An integer reduced modulo 2^PB: a negative one is its two's complement (R121, R182). -/
def phaseOfInt (pb : Nat) (n : Int) : DWord := BitVec.ofNat 64 (n % ((2 ^ pb : Nat) : Int)).toNat

/-- The words of a `uPB` result: one for `PB = 32`, two (low first) for `PB = 64` (R85). -/
def phaseWords (pb : PhaseBits) (v : DWord) : List Word :=
  match pb with
  | .w32 => [lowWord v]
  | .w64 => dwordWords v

/-- The increment `rha(freq * 2^PB / sampleRate) mod 2^PB` for a positive rate (R182). The units of the operands cancel. -/
def ncoIncrement (pb : Nat) (freq rate : CF) : DWord :=
  phaseOfInt pb (rha (cfScaled freq * 2 ^ pb) (cfScaled rate).toNat)

/-! ## The dither generator (R123) -/

/-- One step of the Galois shift register (R123). -/
def lfsrStep (l : Word) : Word :=
  let t := l >>> 1
  if l.getLsbD 0 then t ^^^ Config.lfsrPoly else t

/-- The dither value: the low `bits` bits of the generator's state (R185). -/
def ditherValue (bits : BitVec 6) (l : Word) : DWord := BitVec.ofNat 64 (l.toNat % 2 ^ bits.toNat)

/-! ## Results -/

/-- The result words of an output vector (R89, R221). -/
def OutVec.words (pb : PhaseBits) : OutVec → List Word
  | .simple s c => [s, c]
  | .stereo s c s2 c2 => [s, c, s2, c2]
  | .rds s c ph => [s, c] ++ phaseWords pb ph

/-- The result words of one event record (R89, R235). -/
def EventRecord.words (e : EventRecord) : List Word := [e.index] ++ dwordWords e.sampleCount ++ [e.blockPos]

/-- `VARIANT` of a legal projection code (R38, R84). -/
def variantOfCode : BitVec 2 → Option Variant
  | 0#2 => some .simple
  | 1#2 => some .stereo
  | 2#2 => some .rds
  | _ => none

end Sys2Proof.Machine
end

