-- ==== Sys2Proof/Machine/Flags.lean ====
section
/-!
DEFINITION. The flags of a response and its status word (R54, R86), and the error codes (R270).
-/

namespace Sys2Proof.Machine

/-- The five flags of a status word (R86). -/
structure Flags where
  valid    : Bool
  consumed : Bool
  locked   : Bool
  evpend   : Bool
  evovf    : Bool
  deriving DecidableEq, Repr

/-- No flag set. -/
def Flags.none : Flags := ⟨false, false, false, false, false⟩

/-- The flags of an RSMP data command (R54). -/
def Flags.rsmp (valid consumed : Bool) : Flags := ⟨valid, consumed, false, false, false⟩

/-- The loop is Locked when the counter has reached the threshold (R48, R227). -/
def Pll.locked (p : Pll) : Bool := p.lockCnt == p.lockDelay

/-- The flags of a PLL command, of the state after it (R54). -/
def Flags.pll (p : Pll) : Flags := ⟨false, false, p.locked, !p.evq.isEmpty, p.evOvf⟩

/-- The number of an error code (R270). -/
def ErrorCode.code : ErrorCode → Nat
  | .invalidConfiguration => 1
  | .illegalCommand => 2
  | .badInstance => 3
  | .notConfigured => 4
  | .badOperand => 5
  | .phaseRange => 6
  | .numericOverflow => 7
  | .badIndex => 8

/-- The status word (R86): bits 31:24 are 0, `NRES` 23:16, 15:13 are 0, `EVOVF`, `EVPEND`, `LOCKED`, `CONSUMED`, `VALID`,
and `CODE` 7:0. -/
def statusWord (code : Nat) (fl : Flags) (nres : Nat) : Word :=
  0#8 ++ BitVec.ofNat 8 nres ++ 0#3 ++ BitVec.ofBool fl.evovf ++ BitVec.ofBool fl.evpend ++ BitVec.ofBool fl.locked
    ++ BitVec.ofBool fl.consumed ++ BitVec.ofBool fl.valid ++ BitVec.ofNat 8 code

/-- The sticky bit of an error in `CORE.ERRFLAGS`: bit `n` for code `n` (R55). -/
def ErrorCode.flag (e : ErrorCode) : Word := 1#32 <<< e.code

end Sys2Proof.Machine
end

