-- ==== Sys2Proof/Machine/Ops.lean ====
section
/-!
DEFINITION. The operations every command uses: element access (R9, R60), sending a response (R80, R86), raising an error, which
is all there is of taking an exception (R272, R282), reset (R300, R301), the selection of the addressed unit (R83, R275), and
the registers that a failed configuration leaves unspecified (R147, R219).
-/

namespace Sys2Proof.Machine

/-! ## Memory spaces (R60) -/

/-- `MemRead(S, a)`: element `a`; `none` outside the space, where R60 defines nothing. -/
def memRead {α : Type} (m : Memory α) (a : Nat) : Option α := m[a]?

/-- `MemWrite(S, a, v)`: the space with element `a` replaced; `none` outside the space. -/
def memWrite {α : Type} (m : Memory α) (a : Nat) (v : α) : Option (Memory α) :=
  if a < m.length then some (m.set a v) else none

/-! ## Responses and errors -/

/-- Sends the response of a completed command: the status word with `CODE = 0`, then the results (R80, R86). -/
def State.respond (s : State) (fl : Flags) (results : List Word) : State :=
  { s with response := statusWord 0 fl results.length :: results }

/-- `raise E` (R10, R272): the sticky bit of the error is set and the response is one word with the code; nothing else
changes. There is no handler, no saved context and no return from it (R282, R283). -/
def State.raise (s : State) (e : ErrorCode) : State :=
  { s with errFlags := s.errFlags ||| e.flag, response := [statusWord e.code Flags.none 0] }

/-! ## Reset (R57, R301) -/

/-- The reset state of every unit and of `ERRFLAGS`, the effect that the reset input and CORE.RESET share (R261, R300). The
port is not part of it: pending events stay, and who sends which response is the caller's. -/
def State.resetUnits (s : State) : State :=
  { s with
    rsmp := s.rsmp.map fun r => Rsmp.reset r.freeIx
    nco := s.nco.map fun _ => Nco.reset
    pll := s.pll.map fun p => Pll.reset p.freeIx
    errFlags := 0#32 }

/-! ## The addressed unit (R83, R275) -/

/-- What a command's effect on its own unit is. -/
inductive Answer (σ : Type) where
  /-- the command completes: the unit's new state, the flags and the results (R80) -/
  | done (u : σ) (fl : Flags) (results : List Word)
  /-- the command raises an error and writes nothing (R272) -/
  | error (e : ErrorCode)
  /-- a configuration command raises InvalidConfiguration and leaves the unit as `u`, with `CFG_VALID = 0` (R272, R273) -/
  | invalid (u : σ)
  /-- the machine stops -/
  | stop (f : Fault)
  deriving DecidableEq, Repr

/-- Runs a command on `RSMP[k]`; BadInstance when there is none (R83, R275). -/
def onRsmp (k : BitVec 4) (s : State) (f : Rsmp → Answer Rsmp) : Host.Outcome State Fault Refusal :=
  match s.rsmp[k.toNat]? with
  | none => .next (s.raise .badInstance)
  | some u =>
    match f u with
    | .done u' fl results => .next ({ s with rsmp := s.rsmp.set k.toNat u' }.respond fl results)
    | .error e => .next (s.raise e)
    | .invalid u' => .next ({ s with rsmp := s.rsmp.set k.toNat u' }.raise .invalidConfiguration)
    | .stop x => .fault x

/-- Runs a command on `NCO[k]`; BadInstance when there is none (R83, R275). -/
def onNco (k : BitVec 4) (s : State) (f : Nco → Answer Nco) : Host.Outcome State Fault Refusal :=
  match s.nco[k.toNat]? with
  | none => .next (s.raise .badInstance)
  | some u =>
    match f u with
    | .done u' fl results => .next ({ s with nco := s.nco.set k.toNat u' }.respond fl results)
    | .error e => .next (s.raise e)
    | .invalid u' => .next ({ s with nco := s.nco.set k.toNat u' }.raise .invalidConfiguration)
    | .stop x => .fault x

/-- Runs a command on `PLL[k]`; BadInstance when there is none (R83, R275). -/
def onPll (k : BitVec 4) (s : State) (f : Pll → Answer Pll) : Host.Outcome State Fault Refusal :=
  match s.pll[k.toNat]? with
  | none => .next (s.raise .badInstance)
  | some u =>
    match f u with
    | .done u' fl results => .next ({ s with pll := s.pll.set k.toNat u' }.respond fl results)
    | .error e => .next (s.raise e)
    | .invalid u' => .next ({ s with pll := s.pll.set k.toNat u' }.raise .invalidConfiguration)
    | .stop x => .fault x

/-- Every command of an RSMP unit but RSMP.CREATE raises NotConfigured while `CFG_VALID = 0` (R276). -/
def rsmpConfigured (u : Rsmp) (f : Answer Rsmp) : Answer Rsmp := if u.cfgValid then f else .error .notConfigured

/-- Every command of an NCO unit but NCO.SETFREQ raises NotConfigured while `CFG_VALID = 0` (R276). -/
def ncoConfigured (u : Nco) (f : Answer Nco) : Answer Nco := if u.cfgValid then f else .error .notConfigured

/-- Every command of a PLL unit but PLL.CONFIGURE raises NotConfigured while `CFG_VALID = 0` (R276). -/
def pllConfigured (u : Pll) (f : Answer Pll) : Answer Pll := if u.cfgValid then f else .error .notConfigured

/-! ## Registers left unspecified by a failed configuration (R147, R219, log 4) -/

/-- An RSMP unit after a failed RSMP.CREATE: `CFG_VALID = 0`, every other register a free value within its own limits. -/
def rsmpUnspecified (k : BitVec 4) (u : Rsmp) : Rsmp :=
  let w (reg : Nat) : Word := Config.freeWord 1 k.toNat u.freeIx reg
  { cfgValid := false
    phaseSteps := (w 0).setWidth 16
    ntaps := (w 1).setWidth 16
    wpos := (w 2).setWidth 16
    taps := (Config.freeWords 1 k.toNat u.freeIx 0).take Config.maxBank
    ring := (((Config.freeWords 1 k.toNat u.freeIx 1).zip (Config.freeWords 1 k.toNat u.freeIx 2)).take
      Config.maxNtaps).map fun x => ⟨x.1, x.2⟩
    freeIx := u.freeIx + 1 }

/-- An output vector of free words, of the shape of `v` (R50). -/
def outUnspecified (v : Variant) (a b c d : Word) (ph : DWord) : OutVec :=
  match v with
  | .simple => .simple a b
  | .stereo => .stereo a b c d
  | .rds => .rds a b ph

/-- A PLL unit after a failed PLL.CONFIGURE: `CFG_VALID = 0`, every other register a free value within its own limits. -/
def pllUnspecified (pb : Nat) (k : BitVec 4) (u : Pll) : Pll :=
  let w (reg : Nat) : Word := Config.freeWord 3 k.toNat u.freeIx reg
  let ws (space : Nat) : List Word := Config.freeWords 3 k.toNat u.freeIx space
  let ph (lo hi : Nat) : DWord := BitVec.ofNat 64 ((joinWords (w lo) (w hi)).toNat % 2 ^ pb)
  let v : Variant := if (w 0).toNat % 3 = 0 then .simple else if (w 0).toNat % 3 = 1 then .stereo else .rds
  { cfgValid := false
    variant := v
    even := (w 1).getLsbD 0
    freq0 := w 2, minfreq := w 3, maxfreq := w 4, minsignal := w 5
    osc0c := w 6, osc0s := w 7, osc1c := w 8, osc1s := w 9
    lfB0 := w 10, lfB1 := w 11, ampK := w 12, lockDelay := w 13
    phase := ph 14 15
    freq := w 16, ps := w 17, pc := w 18, lfX1 := w 19, pilot := w 20, lockCnt := w 21, periodIdx := w 22
    sampleCnt := joinWords (w 23) (w 24)
    blockPos := w 25
    out := outUnspecified v (w 26) (w 27) (w 28) (w 29) (ph 30 31)
    evq := (((ws 0).zip ((ws 1).zip ((ws 2).zip (ws 3)))).take Config.evqDepth).map fun x =>
      ⟨x.1, joinWords x.2.1 x.2.2.1, x.2.2.2⟩
    evOvf := (w 32).getLsbD 0
    freeIx := u.freeIx + 1 }

end Sys2Proof.Machine
end

