-- ==== Sys2Proof/Machine/CoreUnit.lean ====
section
/-!
DEFINITION. The four CORE commands (44_core.md).
-/

namespace Sys2Proof.Machine

/-- CORE.NOP (R260): no state change, an empty response. -/
def execCoreNop (s : State) : Host.Outcome State Fault Refusal := .next (s.respond Flags.none [])

/-- CORE.RESET (R261): the reset state of every unit and of `ERRFLAGS`, and a response. -/
def execCoreReset (s : State) : Host.Outcome State Fault Refusal := .next (s.resetUnits.respond Flags.none [])

/-- The `params` word of CORE.ID (R262): the major version in bits 31:28, `N_PLL - 1`, `N_NCO - 1`, `N_RSMP - 1`, `TB` in bits
15:8 and `PB` in bits 7:0. -/
def idParams (c : Config) : Word :=
  BitVec.ofNat 4 Config.majorVersion ++ BitVec.ofNat 4 (c.nPll - 1) ++ BitVec.ofNat 4 (c.nNco - 1)
    ++ BitVec.ofNat 4 (c.nRsmp - 1) ++ BitVec.ofNat 8 Config.tb ++ BitVec.ofNat 8 c.pb

/-- CORE.ID (R262). -/
def execCoreId (s : State) : Host.Outcome State Fault Refusal :=
  .next (s.respond Flags.none [Config.idWord, idParams s.cfg])

/-- CORE.ERR (R263): the register is read and not cleared. -/
def execCoreErr (s : State) : Host.Outcome State Fault Refusal := .next (s.respond Flags.none [s.errFlags])

end Sys2Proof.Machine
end

