-- ==== Sys2Proof/Machine/CosTable.lean ====
section
/-!
DEFINITION. The contents of the cosine ROM `COS` (R66), bit for bit as spec/cosine_table.json lists them: 64 rows of 64 entries,
entry `i` in row `i / 64` at place `i % 64`.
-/

namespace Sys2Proof.Machine

/-- Entries 0 to 63. -/
def cosRow0 : List Nat :=
  [0x3F800000, 0x3F7FFFEC, 0x3F7FFFB1, 0x3F7FFF4E, 0x3F7FFEC4, 0x3F7FFE13, 0x3F7FFD39, 0x3F7FFC39,
   0x3F7FFB11, 0x3F7FF9C1, 0x3F7FF84A, 0x3F7FF6AC, 0x3F7FF4E6, 0x3F7FF2F8, 0x3F7FF0E3, 0x3F7FEEA7,
   0x3F7FEC43, 0x3F7FE9B8, 0x3F7FE705, 0x3F7FE42B, 0x3F7FE129, 0x3F7FDE00, 0x3F7FDAAF, 0x3F7FD737,
   0x3F7FD397, 0x3F7FCFD1, 0x3F7FCBE2, 0x3F7FC7CC, 0x3F7FC38F, 0x3F7FBF2A, 0x3F7FBA9E, 0x3F7FB5EA,
   0x3F7FB10F, 0x3F7FAC0D, 0x3F7FA6E3, 0x3F7FA191, 0x3F7F9C18, 0x3F7F9678, 0x3F7F90B1, 0x3F7F8AC2,
   0x3F7F84AB, 0x3F7F7E6D, 0x3F7F7808, 0x3F7F717B, 0x3F7F6AC7, 0x3F7F63EC, 0x3F7F5CE9, 0x3F7F55BF,
   0x3F7F4E6D, 0x3F7F46F4, 0x3F7F3F54, 0x3F7F378C, 0x3F7F2F9D, 0x3F7F2787, 0x3F7F1F49, 0x3F7F16E4,
   0x3F7F0E58, 0x3F7F05A4, 0x3F7EFCC9, 0x3F7EF3C7, 0x3F7EEA9D, 0x3F7EE14C, 0x3F7ED7D4, 0x3F7ECE34]

/-- Entries 64 to 127. -/
def cosRow1 : List Nat :=
  [0x3F7EC46D, 0x3F7EBA7F, 0x3F7EB069, 0x3F7EA62D, 0x3F7E9BC9, 0x3F7E913D, 0x3F7E868B, 0x3F7E7BB1,
   0x3F7E70B0, 0x3F7E6588, 0x3F7E5A38, 0x3F7E4EC1, 0x3F7E4323, 0x3F7E375E, 0x3F7E2B72, 0x3F7E1F5E,
   0x3F7E1324, 0x3F7E06C2, 0x3F7DFA38, 0x3F7DED88, 0x3F7DE0B1, 0x3F7DD3B2, 0x3F7DC68C, 0x3F7DB940,
   0x3F7DABCC, 0x3F7D9E30, 0x3F7D906E, 0x3F7D8285, 0x3F7D7474, 0x3F7D663D, 0x3F7D57DE, 0x3F7D4959,
   0x3F7D3AAC, 0x3F7D2BD8, 0x3F7D1CDD, 0x3F7D0DBC, 0x3F7CFE73, 0x3F7CEF03, 0x3F7CDF6C, 0x3F7CCFAE,
   0x3F7CBFC9, 0x3F7CAFBD, 0x3F7C9F8A, 0x3F7C8F31, 0x3F7C7EB0, 0x3F7C6E08, 0x3F7C5D3A, 0x3F7C4C44,
   0x3F7C3B28, 0x3F7C29E5, 0x3F7C187A, 0x3F7C06E9, 0x3F7BF531, 0x3F7BE353, 0x3F7BD14D, 0x3F7BBF20,
   0x3F7BACCD, 0x3F7B9A53, 0x3F7B87B2, 0x3F7B74EA, 0x3F7B61FC, 0x3F7B4EE7, 0x3F7B3BAB, 0x3F7B2848]

/-- Entries 128 to 191. -/
def cosRow2 : List Nat :=
  [0x3F7B14BE, 0x3F7B010E, 0x3F7AED37, 0x3F7AD93A, 0x3F7AC516, 0x3F7AB0CB, 0x3F7A9C59, 0x3F7A87C1,
   0x3F7A7302, 0x3F7A5E1C, 0x3F7A4910, 0x3F7A33DD, 0x3F7A1E84, 0x3F7A0904, 0x3F79F35E, 0x3F79DD91,
   0x3F79C79D, 0x3F79B183, 0x3F799B43, 0x3F7984DC, 0x3F796E4E, 0x3F79579A, 0x3F7940C0, 0x3F7929BF,
   0x3F791298, 0x3F78FB4A, 0x3F78E3D6, 0x3F78CC3B, 0x3F78B47B, 0x3F789C93, 0x3F788486, 0x3F786C52,
   0x3F7853F8, 0x3F783B77, 0x3F7822D1, 0x3F780A04, 0x3F77F110, 0x3F77D7F7, 0x3F77BEB7, 0x3F77A551,
   0x3F778BC5, 0x3F777213, 0x3F77583A, 0x3F773E3C, 0x3F772417, 0x3F7709CC, 0x3F76EF5B, 0x3F76D4C4,
   0x3F76BA07, 0x3F769F24, 0x3F76841B, 0x3F7668EC, 0x3F764D97, 0x3F76321B, 0x3F76167A, 0x3F75FAB3,
   0x3F75DEC6, 0x3F75C2B3, 0x3F75A67B, 0x3F758A1C, 0x3F756D97, 0x3F7550ED, 0x3F75341D, 0x3F751727]

/-- Entries 192 to 255. -/
def cosRow3 : List Nat :=
  [0x3F74FA0B, 0x3F74DCC9, 0x3F74BF62, 0x3F74A1D5, 0x3F748422, 0x3F746649, 0x3F74484B, 0x3F742A27,
   0x3F740BDD, 0x3F73ED6E, 0x3F73CED9, 0x3F73B01F, 0x3F73913F, 0x3F737239, 0x3F73530E, 0x3F7333BE,
   0x3F731447, 0x3F72F4AC, 0x3F72D4EB, 0x3F72B504, 0x3F7294F8, 0x3F7274C7, 0x3F725470, 0x3F7233F4,
   0x3F721352, 0x3F71F28C, 0x3F71D19F, 0x3F71B08E, 0x3F718F57, 0x3F716DFB, 0x3F714C7A, 0x3F712AD4,
   0x3F710908, 0x3F70E717, 0x3F70C501, 0x3F70A2C6, 0x3F708066, 0x3F705DE1, 0x3F703B37, 0x3F701867,
   0x3F6FF573, 0x3F6FD25A, 0x3F6FAF1B, 0x3F6F8BB8, 0x3F6F6830, 0x3F6F4483, 0x3F6F20B0, 0x3F6EFCBA,
   0x3F6ED89E, 0x3F6EB45D, 0x3F6E8FF8, 0x3F6E6B6D, 0x3F6E46BE, 0x3F6E21EB, 0x3F6DFCF2, 0x3F6DD7D5,
   0x3F6DB293, 0x3F6D8D2D, 0x3F6D67A1, 0x3F6D41F2, 0x3F6D1C1D, 0x3F6CF624, 0x3F6CD007, 0x3F6CA9C5]

/-- Entries 256 to 319. -/
def cosRow4 : List Nat :=
  [0x3F6C835E, 0x3F6C5CD4, 0x3F6C3624, 0x3F6C0F50, 0x3F6BE858, 0x3F6BC13B, 0x3F6B99FB, 0x3F6B7295,
   0x3F6B4B0C, 0x3F6B235E, 0x3F6AFB8C, 0x3F6AD395, 0x3F6AAB7B, 0x3F6A833C, 0x3F6A5AD9, 0x3F6A3252,
   0x3F6A09A7, 0x3F69E0D7, 0x3F69B7E4, 0x3F698ECC, 0x3F696591, 0x3F693C32, 0x3F6912AE, 0x3F68E907,
   0x3F68BF3C, 0x3F68954C, 0x3F686B39, 0x3F684103, 0x3F6816A8, 0x3F67EC29, 0x3F67C187, 0x3F6796C1,
   0x3F676BD8, 0x3F6740CA, 0x3F671599, 0x3F66EA45, 0x3F66BECC, 0x3F669330, 0x3F666771, 0x3F663B8E,
   0x3F660F88, 0x3F65E35E, 0x3F65B710, 0x3F658AA0, 0x3F655E0B, 0x3F653154, 0x3F650479, 0x3F64D77B,
   0x3F64AA59, 0x3F647D14, 0x3F644FAC, 0x3F642221, 0x3F63F473, 0x3F63C6A1, 0x3F6398AC, 0x3F636A95,
   0x3F633C5A, 0x3F630DFC, 0x3F62DF7B, 0x3F62B0D7, 0x3F628210, 0x3F625326, 0x3F62241A, 0x3F61F4EA]

/-- Entries 320 to 383. -/
def cosRow5 : List Nat :=
  [0x3F61C598, 0x3F619622, 0x3F61668A, 0x3F6136D0, 0x3F6106F2, 0x3F60D6F2, 0x3F60A6CF, 0x3F607689,
   0x3F604621, 0x3F601596, 0x3F5FE4E9, 0x3F5FB419, 0x3F5F8327, 0x3F5F5212, 0x3F5F20DB, 0x3F5EEF81,
   0x3F5EBE05, 0x3F5E8C67, 0x3F5E5AA6, 0x3F5E28C3, 0x3F5DF6BE, 0x3F5DC497, 0x3F5D924D, 0x3F5D5FE1,
   0x3F5D2D53, 0x3F5CFAA3, 0x3F5CC7D1, 0x3F5C94DD, 0x3F5C61C7, 0x3F5C2E8E, 0x3F5BFB34, 0x3F5BC7B8,
   0x3F5B941A, 0x3F5B605A, 0x3F5B2C79, 0x3F5AF875, 0x3F5AC450, 0x3F5A9009, 0x3F5A5BA0, 0x3F5A2716,
   0x3F59F26A, 0x3F59BD9C, 0x3F5988AD, 0x3F59539C, 0x3F591E6A, 0x3F58E916, 0x3F58B3A1, 0x3F587E0B,
   0x3F584853, 0x3F581279, 0x3F57DC7F, 0x3F57A663, 0x3F577026, 0x3F5739C7, 0x3F570348, 0x3F56CCA7,
   0x3F5695E5, 0x3F565F02, 0x3F5627FE, 0x3F55F0D9, 0x3F55B993, 0x3F55822C, 0x3F554AA4, 0x3F5512FB]

/-- Entries 384 to 447. -/
def cosRow6 : List Nat :=
  [0x3F54DB31, 0x3F54A347, 0x3F546B3B, 0x3F54330F, 0x3F53FAC3, 0x3F53C255, 0x3F5389C7, 0x3F535118,
   0x3F531849, 0x3F52DF59, 0x3F52A649, 0x3F526D18, 0x3F5233C6, 0x3F51FA54, 0x3F51C0C2, 0x3F518710,
   0x3F514D3D, 0x3F51134A, 0x3F50D937, 0x3F509F03, 0x3F5064AF, 0x3F502A3B, 0x3F4FEFA8, 0x3F4FB4F4,
   0x3F4F7A1F, 0x3F4F3F2B, 0x3F4F0417, 0x3F4EC8E4, 0x3F4E8D90, 0x3F4E521C, 0x3F4E1689, 0x3F4DDAD5,
   0x3F4D9F02, 0x3F4D6310, 0x3F4D26FD, 0x3F4CEACB, 0x3F4CAE79, 0x3F4C7208, 0x3F4C3578, 0x3F4BF8C7,
   0x3F4BBBF8, 0x3F4B7F09, 0x3F4B41FA, 0x3F4B04CC, 0x3F4AC77F, 0x3F4A8A13, 0x3F4A4C87, 0x3F4A0EDC,
   0x3F49D112, 0x3F499329, 0x3F495521, 0x3F4916FA, 0x3F48D8B3, 0x3F489A4E, 0x3F485BCA, 0x3F481D27,
   0x3F47DE65, 0x3F479F84, 0x3F476085, 0x3F472167, 0x3F46E22A, 0x3F46A2CE, 0x3F466354, 0x3F4623BB]

/-- Entries 448 to 511. -/
def cosRow7 : List Nat :=
  [0x3F45E403, 0x3F45A42D, 0x3F456439, 0x3F452426, 0x3F44E3F5, 0x3F44A3A5, 0x3F446337, 0x3F4422AB,
   0x3F43E200, 0x3F43A138, 0x3F436051, 0x3F431F4C, 0x3F42DE29, 0x3F429CE8, 0x3F425B89, 0x3F421A0B,
   0x3F41D870, 0x3F4196B7, 0x3F4154E1, 0x3F4112EC, 0x3F40D0DA, 0x3F408EA9, 0x3F404C5C, 0x3F4009F0,
   0x3F3FC767, 0x3F3F84C0, 0x3F3F41FC, 0x3F3EFF1B, 0x3F3EBC1B, 0x3F3E78FF, 0x3F3E35C5, 0x3F3DF26E,
   0x3F3DAEF9, 0x3F3D6B67, 0x3F3D27B8, 0x3F3CE3EC, 0x3F3CA003, 0x3F3C5BFC, 0x3F3C17D9, 0x3F3BD398,
   0x3F3B8F3B, 0x3F3B4AC1, 0x3F3B0629, 0x3F3AC175, 0x3F3A7CA4, 0x3F3A37B7, 0x3F39F2AC, 0x3F39AD85,
   0x3F396842, 0x3F3922E1, 0x3F38DD65, 0x3F3897CB, 0x3F385216, 0x3F380C43, 0x3F37C655, 0x3F37804A,
   0x3F373A23, 0x3F36F3DF, 0x3F36AD7F, 0x3F366704, 0x3F36206C, 0x3F35D9B8, 0x3F3592E7, 0x3F354BFB]

/-- Entries 512 to 575. -/
def cosRow8 : List Nat :=
  [0x3F3504F3, 0x3F34BDCF, 0x3F34768F, 0x3F342F34, 0x3F33E7BC, 0x3F33A029, 0x3F33587A, 0x3F3310AF,
   0x3F32C8C9, 0x3F3280C7, 0x3F3238AA, 0x3F31F071, 0x3F31A81D, 0x3F315FAD, 0x3F311722, 0x3F30CE7C,
   0x3F3085BB, 0x3F303CDE, 0x3F2FF3E6, 0x3F2FAAD3, 0x3F2F61A5, 0x3F2F185B, 0x3F2ECEF7, 0x3F2E8578,
   0x3F2E3BDE, 0x3F2DF229, 0x3F2DA859, 0x3F2D5E6F, 0x3F2D1469, 0x3F2CCA49, 0x3F2C800F, 0x3F2C35B9,
   0x3F2BEB4A, 0x3F2BA0BF, 0x3F2B561B, 0x3F2B0B5B, 0x3F2AC082, 0x3F2A758E, 0x3F2A2A80, 0x3F29DF57,
   0x3F299415, 0x3F2948B8, 0x3F28FD41, 0x3F28B1B0, 0x3F286605, 0x3F281A40, 0x3F27CE61, 0x3F278268,
   0x3F273656, 0x3F26EA2A, 0x3F269DE3, 0x3F265184, 0x3F26050A, 0x3F25B877, 0x3F256BCB, 0x3F251F04,
   0x3F24D225, 0x3F24852C, 0x3F24381A, 0x3F23EAEE, 0x3F239DA9, 0x3F23504B, 0x3F2302D3, 0x3F22B543]

/-- Entries 576 to 639. -/
def cosRow9 : List Nat :=
  [0x3F226799, 0x3F2219D7, 0x3F21CBFB, 0x3F217E06, 0x3F212FF9, 0x3F20E1D2, 0x3F209393, 0x3F20453B,
   0x3F1FF6CB, 0x3F1FA841, 0x3F1F599F, 0x3F1F0AE5, 0x3F1EBC12, 0x3F1E6D26, 0x3F1E1E22, 0x3F1DCF06,
   0x3F1D7FD1, 0x3F1D3084, 0x3F1CE11F, 0x3F1C91A2, 0x3F1C420C, 0x3F1BF25F, 0x3F1BA299, 0x3F1B52BB,
   0x3F1B02C6, 0x3F1AB2B8, 0x3F1A6293, 0x3F1A1255, 0x3F19C200, 0x3F197194, 0x3F19210F, 0x3F18D073,
   0x3F187FC0, 0x3F182EF5, 0x3F17DE12, 0x3F178D18, 0x3F173C07, 0x3F16EADE, 0x3F16999F, 0x3F164847,
   0x3F15F6D9, 0x3F15A554, 0x3F1553B7, 0x3F150204, 0x3F14B039, 0x3F145E58, 0x3F140C5F, 0x3F13BA50,
   0x3F13682A, 0x3F1315EE, 0x3F12C39A, 0x3F127130, 0x3F121EB0, 0x3F11CC19, 0x3F11796B, 0x3F1126A7,
   0x3F10D3CD, 0x3F1080DC, 0x3F102DD5, 0x3F0FDAB8, 0x3F0F8784, 0x3F0F343B, 0x3F0EE0DB, 0x3F0E8D65]

/-- Entries 640 to 703. -/
def cosRow10 : List Nat :=
  [0x3F0E39DA, 0x3F0DE638, 0x3F0D9281, 0x3F0D3EB3, 0x3F0CEAD0, 0x3F0C96D7, 0x3F0C42C9, 0x3F0BEEA5,
   0x3F0B9A6B, 0x3F0B461C, 0x3F0AF1B7, 0x3F0A9D3D, 0x3F0A48AD, 0x3F09F409, 0x3F099F4E, 0x3F094A7F,
   0x3F08F59B, 0x3F08A0A1, 0x3F084B92, 0x3F07F66F, 0x3F07A136, 0x3F074BE8, 0x3F06F686, 0x3F06A10E,
   0x3F064B82, 0x3F05F5E2, 0x3F05A02C, 0x3F054A62, 0x3F04F484, 0x3F049E91, 0x3F044889, 0x3F03F26D,
   0x3F039C3D, 0x3F0345F8, 0x3F02EF9F, 0x3F029932, 0x3F0242B1, 0x3F01EC1C, 0x3F019573, 0x3F013EB5,
   0x3F00E7E4, 0x3F0090FF, 0x3F003A06, 0x3EFFC5F3, 0x3EFF17B2, 0x3EFE694A, 0x3EFDBABB, 0x3EFD0C04,
   0x3EFC5D27, 0x3EFBAE22, 0x3EFAFEF7, 0x3EFA4FA5, 0x3EF9A02D, 0x3EF8F08E, 0x3EF840C8, 0x3EF790DC,
   0x3EF6E0CB, 0x3EF63093, 0x3EF58035, 0x3EF4CFB1, 0x3EF41F07, 0x3EF36E38, 0x3EF2BD43, 0x3EF20C29]

/-- Entries 704 to 767. -/
def cosRow11 : List Nat :=
  [0x3EF15AEA, 0x3EF0A985, 0x3EEFF7FB, 0x3EEF464C, 0x3EEE9479, 0x3EEDE280, 0x3EED3063, 0x3EEC7E21,
   0x3EEBCBBB, 0x3EEB1930, 0x3EEA6681, 0x3EE9B3AE, 0x3EE900B7, 0x3EE84D9C, 0x3EE79A5D, 0x3EE6E6FB,
   0x3EE63375, 0x3EE57FCB, 0x3EE4CBFE, 0x3EE4180E, 0x3EE363FA, 0x3EE2AFC4, 0x3EE1FB6A, 0x3EE146EE,
   0x3EE0924F, 0x3EDFDD8D, 0x3EDF28A9, 0x3EDE73A2, 0x3EDDBE79, 0x3EDD092E, 0x3EDC53C1, 0x3EDB9E31,
   0x3EDAE880, 0x3EDA32AD, 0x3ED97CB9, 0x3ED8C6A3, 0x3ED8106B, 0x3ED75A13, 0x3ED6A399, 0x3ED5ECFD,
   0x3ED53641, 0x3ED47F64, 0x3ED3C867, 0x3ED31148, 0x3ED25A09, 0x3ED1A2AA, 0x3ED0EB2A, 0x3ED0338A,
   0x3ECF7BCA, 0x3ECEC3EA, 0x3ECE0BEA, 0x3ECD53CA, 0x3ECC9B8B, 0x3ECBE32C, 0x3ECB2AAE, 0x3ECA7210,
   0x3EC9B953, 0x3EC90077, 0x3EC8477C, 0x3EC78E62, 0x3EC6D529, 0x3EC61BD2, 0x3EC5625C, 0x3EC4A8C8]

/-- Entries 768 to 831. -/
def cosRow12 : List Nat :=
  [0x3EC3EF15, 0x3EC33544, 0x3EC27B55, 0x3EC1C148, 0x3EC1071E, 0x3EC04CD5, 0x3EBF926F, 0x3EBED7EB,
   0x3EBE1D4A, 0x3EBD628B, 0x3EBCA7AF, 0x3EBBECB6, 0x3EBB31A0, 0x3EBA766E, 0x3EB9BB1E, 0x3EB8FFB2,
   0x3EB8442A, 0x3EB78884, 0x3EB6CCC3, 0x3EB610E6, 0x3EB554EC, 0x3EB498D6, 0x3EB3DCA5, 0x3EB32058,
   0x3EB263EF, 0x3EB1A76B, 0x3EB0EACB, 0x3EB02E10, 0x3EAF713A, 0x3EAEB449, 0x3EADF73C, 0x3EAD3A15,
   0x3EAC7CD4, 0x3EABBF77, 0x3EAB0201, 0x3EAA446F, 0x3EA986C4, 0x3EA8C8FE, 0x3EA80B1F, 0x3EA74D25,
   0x3EA68F12, 0x3EA5D0E5, 0x3EA5129F, 0x3EA4543F, 0x3EA395C5, 0x3EA2D733, 0x3EA21887, 0x3EA159C2,
   0x3EA09AE5, 0x3E9FDBEE, 0x3E9F1CDF, 0x3E9E5DB8, 0x3E9D9E78, 0x3E9CDF20, 0x3E9C1FAF, 0x3E9B6027,
   0x3E9AA086, 0x3E99E0CE, 0x3E9920FE, 0x3E986116, 0x3E97A117, 0x3E96E100, 0x3E9620D2, 0x3E95608D]

/-- Entries 832 to 895. -/
def cosRow13 : List Nat :=
  [0x3E94A031, 0x3E93DFBF, 0x3E931F35, 0x3E925E94, 0x3E919DDD, 0x3E90DD10, 0x3E901C2C, 0x3E8F5B32,
   0x3E8E9A22, 0x3E8DD8FC, 0x3E8D17C0, 0x3E8C566E, 0x3E8B9507, 0x3E8AD38A, 0x3E8A11F7, 0x3E895050,
   0x3E888E93, 0x3E87CCC1, 0x3E870ADA, 0x3E8648DF, 0x3E8586CE, 0x3E84C4AA, 0x3E840270, 0x3E834022,
   0x3E827DC0, 0x3E81BB4A, 0x3E80F8C0, 0x3E803622, 0x3E7EE6E1, 0x3E7D6156, 0x3E7BDBA4, 0x3E7A55CB,
   0x3E78CFCC, 0x3E7749A6, 0x3E75C35A, 0x3E743CE8, 0x3E72B651, 0x3E712F94, 0x3E6FA8B2, 0x3E6E21AB,
   0x3E6C9A7F, 0x3E6B132F, 0x3E698BBA, 0x3E680422, 0x3E667C66, 0x3E64F486, 0x3E636C83, 0x3E61E45C,
   0x3E605C13, 0x3E5ED3A8, 0x3E5D4B1A, 0x3E5BC26A, 0x3E5A3997, 0x3E58B0A4, 0x3E57278F, 0x3E559E58,
   0x3E541501, 0x3E528B89, 0x3E5101F1, 0x3E4F7838, 0x3E4DEE60, 0x3E4C6467, 0x3E4ADA4F, 0x3E495018]

/-- Entries 896 to 959. -/
def cosRow14 : List Nat :=
  [0x3E47C5C2, 0x3E463B4D, 0x3E44B0B9, 0x3E432607, 0x3E419B37, 0x3E401049, 0x3E3E853E, 0x3E3CFA15,
   0x3E3B6ECF, 0x3E39E36C, 0x3E3857EC, 0x3E36CC50, 0x3E354098, 0x3E33B4C4, 0x3E3228D4, 0x3E309CC9,
   0x3E2F10A2, 0x3E2D8461, 0x3E2BF804, 0x3E2A6B8D, 0x3E28DEFC, 0x3E275251, 0x3E25C58C, 0x3E2438AD,
   0x3E22ABB6, 0x3E211EA5, 0x3E1F917B, 0x3E1E0438, 0x3E1C76DE, 0x3E1AE96B, 0x3E195BE0, 0x3E17CE3D,
   0x3E164083, 0x3E14B2B2, 0x3E1324CA, 0x3E1196CC, 0x3E1008B7, 0x3E0E7A8B, 0x3E0CEC4A, 0x3E0B5DF3,
   0x3E09CF86, 0x3E084105, 0x3E06B26E, 0x3E0523C2, 0x3E039502, 0x3E02062E, 0x3E007745, 0x3DFDD092,
   0x3DFAB273, 0x3DF7942C, 0x3DF475C0, 0x3DF1572E, 0x3DEE3876, 0x3DEB199A, 0x3DE7FA9A, 0x3DE4DB76,
   0x3DE1BC2E, 0x3DDE9CC4, 0x3DDB7D37, 0x3DD85D89, 0x3DD53DB9, 0x3DD21DC8, 0x3DCEFDB7, 0x3DCBDD86]

/-- Entries 960 to 1023. -/
def cosRow15 : List Nat :=
  [0x3DC8BD36, 0x3DC59CC6, 0x3DC27C39, 0x3DBF5B8D, 0x3DBC3AC3, 0x3DB919DD, 0x3DB5F8DA, 0x3DB2D7BB,
   0x3DAFB680, 0x3DAC952B, 0x3DA973BA, 0x3DA65230, 0x3DA3308C, 0x3DA00ECF, 0x3D9CECF9, 0x3D99CB0A,
   0x3D96A905, 0x3D9386E7, 0x3D9064B4, 0x3D8D426A, 0x3D8A200A, 0x3D86FD94, 0x3D83DB0A, 0x3D80B86C,
   0x3D7B2B74, 0x3D74E5E9, 0x3D6EA038, 0x3D685A62, 0x3D621469, 0x3D5BCE4C, 0x3D55880E, 0x3D4F41AF,
   0x3D48FB30, 0x3D42B491, 0x3D3C6DD5, 0x3D3626FC, 0x3D2FE007, 0x3D2998F6, 0x3D2351CB, 0x3D1D0A88,
   0x3D16C32C, 0x3D107BB8, 0x3D0A342F, 0x3D03EC90, 0x3CFB49BA, 0x3CEEBA2C, 0x3CE22A7A, 0x3CD59AA6,
   0x3CC90AB0, 0x3CBC7A9B, 0x3CAFEA69, 0x3CA35A1C, 0x3C96C9B6, 0x3C8A3938, 0x3C7B514B, 0x3C622FFF,
   0x3C490E90, 0x3C2FED02, 0x3C16CB58, 0x3BFB5330, 0x3BC90F88, 0x3B96CBC1, 0x3B490FC6, 0x3AC90FD5]

/-- Entries 1024 to 1087. -/
def cosRow16 : List Nat :=
  [0x00000000, 0xBAC90FD5, 0xBB490FC6, 0xBB96CBC1, 0xBBC90F88, 0xBBFB5330, 0xBC16CB58, 0xBC2FED02,
   0xBC490E90, 0xBC622FFF, 0xBC7B514B, 0xBC8A3938, 0xBC96C9B6, 0xBCA35A1C, 0xBCAFEA69, 0xBCBC7A9B,
   0xBCC90AB0, 0xBCD59AA6, 0xBCE22A7A, 0xBCEEBA2C, 0xBCFB49BA, 0xBD03EC90, 0xBD0A342F, 0xBD107BB8,
   0xBD16C32C, 0xBD1D0A88, 0xBD2351CB, 0xBD2998F6, 0xBD2FE007, 0xBD3626FC, 0xBD3C6DD5, 0xBD42B491,
   0xBD48FB30, 0xBD4F41AF, 0xBD55880E, 0xBD5BCE4C, 0xBD621469, 0xBD685A62, 0xBD6EA038, 0xBD74E5E9,
   0xBD7B2B74, 0xBD80B86C, 0xBD83DB0A, 0xBD86FD94, 0xBD8A200A, 0xBD8D426A, 0xBD9064B4, 0xBD9386E7,
   0xBD96A905, 0xBD99CB0A, 0xBD9CECF9, 0xBDA00ECF, 0xBDA3308C, 0xBDA65230, 0xBDA973BA, 0xBDAC952B,
   0xBDAFB680, 0xBDB2D7BB, 0xBDB5F8DA, 0xBDB919DD, 0xBDBC3AC3, 0xBDBF5B8D, 0xBDC27C39, 0xBDC59CC6]

/-- Entries 1088 to 1151. -/
def cosRow17 : List Nat :=
  [0xBDC8BD36, 0xBDCBDD86, 0xBDCEFDB7, 0xBDD21DC8, 0xBDD53DB9, 0xBDD85D89, 0xBDDB7D37, 0xBDDE9CC4,
   0xBDE1BC2E, 0xBDE4DB76, 0xBDE7FA9A, 0xBDEB199A, 0xBDEE3876, 0xBDF1572E, 0xBDF475C0, 0xBDF7942C,
   0xBDFAB273, 0xBDFDD092, 0xBE007745, 0xBE02062E, 0xBE039502, 0xBE0523C2, 0xBE06B26E, 0xBE084105,
   0xBE09CF86, 0xBE0B5DF3, 0xBE0CEC4A, 0xBE0E7A8B, 0xBE1008B7, 0xBE1196CC, 0xBE1324CA, 0xBE14B2B2,
   0xBE164083, 0xBE17CE3D, 0xBE195BE0, 0xBE1AE96B, 0xBE1C76DE, 0xBE1E0438, 0xBE1F917B, 0xBE211EA5,
   0xBE22ABB6, 0xBE2438AD, 0xBE25C58C, 0xBE275251, 0xBE28DEFC, 0xBE2A6B8D, 0xBE2BF804, 0xBE2D8461,
   0xBE2F10A2, 0xBE309CC9, 0xBE3228D4, 0xBE33B4C4, 0xBE354098, 0xBE36CC50, 0xBE3857EC, 0xBE39E36C,
   0xBE3B6ECF, 0xBE3CFA15, 0xBE3E853E, 0xBE401049, 0xBE419B37, 0xBE432607, 0xBE44B0B9, 0xBE463B4D]

/-- Entries 1152 to 1215. -/
def cosRow18 : List Nat :=
  [0xBE47C5C2, 0xBE495018, 0xBE4ADA4F, 0xBE4C6467, 0xBE4DEE60, 0xBE4F7838, 0xBE5101F1, 0xBE528B89,
   0xBE541501, 0xBE559E58, 0xBE57278F, 0xBE58B0A4, 0xBE5A3997, 0xBE5BC26A, 0xBE5D4B1A, 0xBE5ED3A8,
   0xBE605C13, 0xBE61E45C, 0xBE636C83, 0xBE64F486, 0xBE667C66, 0xBE680422, 0xBE698BBA, 0xBE6B132F,
   0xBE6C9A7F, 0xBE6E21AB, 0xBE6FA8B2, 0xBE712F94, 0xBE72B651, 0xBE743CE8, 0xBE75C35A, 0xBE7749A6,
   0xBE78CFCC, 0xBE7A55CB, 0xBE7BDBA4, 0xBE7D6156, 0xBE7EE6E1, 0xBE803622, 0xBE80F8C0, 0xBE81BB4A,
   0xBE827DC0, 0xBE834022, 0xBE840270, 0xBE84C4AA, 0xBE8586CE, 0xBE8648DF, 0xBE870ADA, 0xBE87CCC1,
   0xBE888E93, 0xBE895050, 0xBE8A11F7, 0xBE8AD38A, 0xBE8B9507, 0xBE8C566E, 0xBE8D17C0, 0xBE8DD8FC,
   0xBE8E9A22, 0xBE8F5B32, 0xBE901C2C, 0xBE90DD10, 0xBE919DDD, 0xBE925E94, 0xBE931F35, 0xBE93DFBF]

/-- Entries 1216 to 1279. -/
def cosRow19 : List Nat :=
  [0xBE94A031, 0xBE95608D, 0xBE9620D2, 0xBE96E100, 0xBE97A117, 0xBE986116, 0xBE9920FE, 0xBE99E0CE,
   0xBE9AA086, 0xBE9B6027, 0xBE9C1FAF, 0xBE9CDF20, 0xBE9D9E78, 0xBE9E5DB8, 0xBE9F1CDF, 0xBE9FDBEE,
   0xBEA09AE5, 0xBEA159C2, 0xBEA21887, 0xBEA2D733, 0xBEA395C5, 0xBEA4543F, 0xBEA5129F, 0xBEA5D0E5,
   0xBEA68F12, 0xBEA74D25, 0xBEA80B1F, 0xBEA8C8FE, 0xBEA986C4, 0xBEAA446F, 0xBEAB0201, 0xBEABBF77,
   0xBEAC7CD4, 0xBEAD3A15, 0xBEADF73C, 0xBEAEB449, 0xBEAF713A, 0xBEB02E10, 0xBEB0EACB, 0xBEB1A76B,
   0xBEB263EF, 0xBEB32058, 0xBEB3DCA5, 0xBEB498D6, 0xBEB554EC, 0xBEB610E6, 0xBEB6CCC3, 0xBEB78884,
   0xBEB8442A, 0xBEB8FFB2, 0xBEB9BB1E, 0xBEBA766E, 0xBEBB31A0, 0xBEBBECB6, 0xBEBCA7AF, 0xBEBD628B,
   0xBEBE1D4A, 0xBEBED7EB, 0xBEBF926F, 0xBEC04CD5, 0xBEC1071E, 0xBEC1C148, 0xBEC27B55, 0xBEC33544]

/-- Entries 1280 to 1343. -/
def cosRow20 : List Nat :=
  [0xBEC3EF15, 0xBEC4A8C8, 0xBEC5625C, 0xBEC61BD2, 0xBEC6D529, 0xBEC78E62, 0xBEC8477C, 0xBEC90077,
   0xBEC9B953, 0xBECA7210, 0xBECB2AAE, 0xBECBE32C, 0xBECC9B8B, 0xBECD53CA, 0xBECE0BEA, 0xBECEC3EA,
   0xBECF7BCA, 0xBED0338A, 0xBED0EB2A, 0xBED1A2AA, 0xBED25A09, 0xBED31148, 0xBED3C867, 0xBED47F64,
   0xBED53641, 0xBED5ECFD, 0xBED6A399, 0xBED75A13, 0xBED8106B, 0xBED8C6A3, 0xBED97CB9, 0xBEDA32AD,
   0xBEDAE880, 0xBEDB9E31, 0xBEDC53C1, 0xBEDD092E, 0xBEDDBE79, 0xBEDE73A2, 0xBEDF28A9, 0xBEDFDD8D,
   0xBEE0924F, 0xBEE146EE, 0xBEE1FB6A, 0xBEE2AFC4, 0xBEE363FA, 0xBEE4180E, 0xBEE4CBFE, 0xBEE57FCB,
   0xBEE63375, 0xBEE6E6FB, 0xBEE79A5D, 0xBEE84D9C, 0xBEE900B7, 0xBEE9B3AE, 0xBEEA6681, 0xBEEB1930,
   0xBEEBCBBB, 0xBEEC7E21, 0xBEED3063, 0xBEEDE280, 0xBEEE9479, 0xBEEF464C, 0xBEEFF7FB, 0xBEF0A985]

/-- Entries 1344 to 1407. -/
def cosRow21 : List Nat :=
  [0xBEF15AEA, 0xBEF20C29, 0xBEF2BD43, 0xBEF36E38, 0xBEF41F07, 0xBEF4CFB1, 0xBEF58035, 0xBEF63093,
   0xBEF6E0CB, 0xBEF790DC, 0xBEF840C8, 0xBEF8F08E, 0xBEF9A02D, 0xBEFA4FA5, 0xBEFAFEF7, 0xBEFBAE22,
   0xBEFC5D27, 0xBEFD0C04, 0xBEFDBABB, 0xBEFE694A, 0xBEFF17B2, 0xBEFFC5F3, 0xBF003A06, 0xBF0090FF,
   0xBF00E7E4, 0xBF013EB5, 0xBF019573, 0xBF01EC1C, 0xBF0242B1, 0xBF029932, 0xBF02EF9F, 0xBF0345F8,
   0xBF039C3D, 0xBF03F26D, 0xBF044889, 0xBF049E91, 0xBF04F484, 0xBF054A62, 0xBF05A02C, 0xBF05F5E2,
   0xBF064B82, 0xBF06A10E, 0xBF06F686, 0xBF074BE8, 0xBF07A136, 0xBF07F66F, 0xBF084B92, 0xBF08A0A1,
   0xBF08F59B, 0xBF094A7F, 0xBF099F4E, 0xBF09F409, 0xBF0A48AD, 0xBF0A9D3D, 0xBF0AF1B7, 0xBF0B461C,
   0xBF0B9A6B, 0xBF0BEEA5, 0xBF0C42C9, 0xBF0C96D7, 0xBF0CEAD0, 0xBF0D3EB3, 0xBF0D9281, 0xBF0DE638]

/-- Entries 1408 to 1471. -/
def cosRow22 : List Nat :=
  [0xBF0E39DA, 0xBF0E8D65, 0xBF0EE0DB, 0xBF0F343B, 0xBF0F8784, 0xBF0FDAB8, 0xBF102DD5, 0xBF1080DC,
   0xBF10D3CD, 0xBF1126A7, 0xBF11796B, 0xBF11CC19, 0xBF121EB0, 0xBF127130, 0xBF12C39A, 0xBF1315EE,
   0xBF13682A, 0xBF13BA50, 0xBF140C5F, 0xBF145E58, 0xBF14B039, 0xBF150204, 0xBF1553B7, 0xBF15A554,
   0xBF15F6D9, 0xBF164847, 0xBF16999F, 0xBF16EADE, 0xBF173C07, 0xBF178D18, 0xBF17DE12, 0xBF182EF5,
   0xBF187FC0, 0xBF18D073, 0xBF19210F, 0xBF197194, 0xBF19C200, 0xBF1A1255, 0xBF1A6293, 0xBF1AB2B8,
   0xBF1B02C6, 0xBF1B52BB, 0xBF1BA299, 0xBF1BF25F, 0xBF1C420C, 0xBF1C91A2, 0xBF1CE11F, 0xBF1D3084,
   0xBF1D7FD1, 0xBF1DCF06, 0xBF1E1E22, 0xBF1E6D26, 0xBF1EBC12, 0xBF1F0AE5, 0xBF1F599F, 0xBF1FA841,
   0xBF1FF6CB, 0xBF20453B, 0xBF209393, 0xBF20E1D2, 0xBF212FF9, 0xBF217E06, 0xBF21CBFB, 0xBF2219D7]

/-- Entries 1472 to 1535. -/
def cosRow23 : List Nat :=
  [0xBF226799, 0xBF22B543, 0xBF2302D3, 0xBF23504B, 0xBF239DA9, 0xBF23EAEE, 0xBF24381A, 0xBF24852C,
   0xBF24D225, 0xBF251F04, 0xBF256BCB, 0xBF25B877, 0xBF26050A, 0xBF265184, 0xBF269DE3, 0xBF26EA2A,
   0xBF273656, 0xBF278268, 0xBF27CE61, 0xBF281A40, 0xBF286605, 0xBF28B1B0, 0xBF28FD41, 0xBF2948B8,
   0xBF299415, 0xBF29DF57, 0xBF2A2A80, 0xBF2A758E, 0xBF2AC082, 0xBF2B0B5B, 0xBF2B561B, 0xBF2BA0BF,
   0xBF2BEB4A, 0xBF2C35B9, 0xBF2C800F, 0xBF2CCA49, 0xBF2D1469, 0xBF2D5E6F, 0xBF2DA859, 0xBF2DF229,
   0xBF2E3BDE, 0xBF2E8578, 0xBF2ECEF7, 0xBF2F185B, 0xBF2F61A5, 0xBF2FAAD3, 0xBF2FF3E6, 0xBF303CDE,
   0xBF3085BB, 0xBF30CE7C, 0xBF311722, 0xBF315FAD, 0xBF31A81D, 0xBF31F071, 0xBF3238AA, 0xBF3280C7,
   0xBF32C8C9, 0xBF3310AF, 0xBF33587A, 0xBF33A029, 0xBF33E7BC, 0xBF342F34, 0xBF34768F, 0xBF34BDCF]

/-- Entries 1536 to 1599. -/
def cosRow24 : List Nat :=
  [0xBF3504F3, 0xBF354BFB, 0xBF3592E7, 0xBF35D9B8, 0xBF36206C, 0xBF366704, 0xBF36AD7F, 0xBF36F3DF,
   0xBF373A23, 0xBF37804A, 0xBF37C655, 0xBF380C43, 0xBF385216, 0xBF3897CB, 0xBF38DD65, 0xBF3922E1,
   0xBF396842, 0xBF39AD85, 0xBF39F2AC, 0xBF3A37B7, 0xBF3A7CA4, 0xBF3AC175, 0xBF3B0629, 0xBF3B4AC1,
   0xBF3B8F3B, 0xBF3BD398, 0xBF3C17D9, 0xBF3C5BFC, 0xBF3CA003, 0xBF3CE3EC, 0xBF3D27B8, 0xBF3D6B67,
   0xBF3DAEF9, 0xBF3DF26E, 0xBF3E35C5, 0xBF3E78FF, 0xBF3EBC1B, 0xBF3EFF1B, 0xBF3F41FC, 0xBF3F84C0,
   0xBF3FC767, 0xBF4009F0, 0xBF404C5C, 0xBF408EA9, 0xBF40D0DA, 0xBF4112EC, 0xBF4154E1, 0xBF4196B7,
   0xBF41D870, 0xBF421A0B, 0xBF425B89, 0xBF429CE8, 0xBF42DE29, 0xBF431F4C, 0xBF436051, 0xBF43A138,
   0xBF43E200, 0xBF4422AB, 0xBF446337, 0xBF44A3A5, 0xBF44E3F5, 0xBF452426, 0xBF456439, 0xBF45A42D]

/-- Entries 1600 to 1663. -/
def cosRow25 : List Nat :=
  [0xBF45E403, 0xBF4623BB, 0xBF466354, 0xBF46A2CE, 0xBF46E22A, 0xBF472167, 0xBF476085, 0xBF479F84,
   0xBF47DE65, 0xBF481D27, 0xBF485BCA, 0xBF489A4E, 0xBF48D8B3, 0xBF4916FA, 0xBF495521, 0xBF499329,
   0xBF49D112, 0xBF4A0EDC, 0xBF4A4C87, 0xBF4A8A13, 0xBF4AC77F, 0xBF4B04CC, 0xBF4B41FA, 0xBF4B7F09,
   0xBF4BBBF8, 0xBF4BF8C7, 0xBF4C3578, 0xBF4C7208, 0xBF4CAE79, 0xBF4CEACB, 0xBF4D26FD, 0xBF4D6310,
   0xBF4D9F02, 0xBF4DDAD5, 0xBF4E1689, 0xBF4E521C, 0xBF4E8D90, 0xBF4EC8E4, 0xBF4F0417, 0xBF4F3F2B,
   0xBF4F7A1F, 0xBF4FB4F4, 0xBF4FEFA8, 0xBF502A3B, 0xBF5064AF, 0xBF509F03, 0xBF50D937, 0xBF51134A,
   0xBF514D3D, 0xBF518710, 0xBF51C0C2, 0xBF51FA54, 0xBF5233C6, 0xBF526D18, 0xBF52A649, 0xBF52DF59,
   0xBF531849, 0xBF535118, 0xBF5389C7, 0xBF53C255, 0xBF53FAC3, 0xBF54330F, 0xBF546B3B, 0xBF54A347]

/-- Entries 1664 to 1727. -/
def cosRow26 : List Nat :=
  [0xBF54DB31, 0xBF5512FB, 0xBF554AA4, 0xBF55822C, 0xBF55B993, 0xBF55F0D9, 0xBF5627FE, 0xBF565F02,
   0xBF5695E5, 0xBF56CCA7, 0xBF570348, 0xBF5739C7, 0xBF577026, 0xBF57A663, 0xBF57DC7F, 0xBF581279,
   0xBF584853, 0xBF587E0B, 0xBF58B3A1, 0xBF58E916, 0xBF591E6A, 0xBF59539C, 0xBF5988AD, 0xBF59BD9C,
   0xBF59F26A, 0xBF5A2716, 0xBF5A5BA0, 0xBF5A9009, 0xBF5AC450, 0xBF5AF875, 0xBF5B2C79, 0xBF5B605A,
   0xBF5B941A, 0xBF5BC7B8, 0xBF5BFB34, 0xBF5C2E8E, 0xBF5C61C7, 0xBF5C94DD, 0xBF5CC7D1, 0xBF5CFAA3,
   0xBF5D2D53, 0xBF5D5FE1, 0xBF5D924D, 0xBF5DC497, 0xBF5DF6BE, 0xBF5E28C3, 0xBF5E5AA6, 0xBF5E8C67,
   0xBF5EBE05, 0xBF5EEF81, 0xBF5F20DB, 0xBF5F5212, 0xBF5F8327, 0xBF5FB419, 0xBF5FE4E9, 0xBF601596,
   0xBF604621, 0xBF607689, 0xBF60A6CF, 0xBF60D6F2, 0xBF6106F2, 0xBF6136D0, 0xBF61668A, 0xBF619622]

/-- Entries 1728 to 1791. -/
def cosRow27 : List Nat :=
  [0xBF61C598, 0xBF61F4EA, 0xBF62241A, 0xBF625326, 0xBF628210, 0xBF62B0D7, 0xBF62DF7B, 0xBF630DFC,
   0xBF633C5A, 0xBF636A95, 0xBF6398AC, 0xBF63C6A1, 0xBF63F473, 0xBF642221, 0xBF644FAC, 0xBF647D14,
   0xBF64AA59, 0xBF64D77B, 0xBF650479, 0xBF653154, 0xBF655E0B, 0xBF658AA0, 0xBF65B710, 0xBF65E35E,
   0xBF660F88, 0xBF663B8E, 0xBF666771, 0xBF669330, 0xBF66BECC, 0xBF66EA45, 0xBF671599, 0xBF6740CA,
   0xBF676BD8, 0xBF6796C1, 0xBF67C187, 0xBF67EC29, 0xBF6816A8, 0xBF684103, 0xBF686B39, 0xBF68954C,
   0xBF68BF3C, 0xBF68E907, 0xBF6912AE, 0xBF693C32, 0xBF696591, 0xBF698ECC, 0xBF69B7E4, 0xBF69E0D7,
   0xBF6A09A7, 0xBF6A3252, 0xBF6A5AD9, 0xBF6A833C, 0xBF6AAB7B, 0xBF6AD395, 0xBF6AFB8C, 0xBF6B235E,
   0xBF6B4B0C, 0xBF6B7295, 0xBF6B99FB, 0xBF6BC13B, 0xBF6BE858, 0xBF6C0F50, 0xBF6C3624, 0xBF6C5CD4]

/-- Entries 1792 to 1855. -/
def cosRow28 : List Nat :=
  [0xBF6C835E, 0xBF6CA9C5, 0xBF6CD007, 0xBF6CF624, 0xBF6D1C1D, 0xBF6D41F2, 0xBF6D67A1, 0xBF6D8D2D,
   0xBF6DB293, 0xBF6DD7D5, 0xBF6DFCF2, 0xBF6E21EB, 0xBF6E46BE, 0xBF6E6B6D, 0xBF6E8FF8, 0xBF6EB45D,
   0xBF6ED89E, 0xBF6EFCBA, 0xBF6F20B0, 0xBF6F4483, 0xBF6F6830, 0xBF6F8BB8, 0xBF6FAF1B, 0xBF6FD25A,
   0xBF6FF573, 0xBF701867, 0xBF703B37, 0xBF705DE1, 0xBF708066, 0xBF70A2C6, 0xBF70C501, 0xBF70E717,
   0xBF710908, 0xBF712AD4, 0xBF714C7A, 0xBF716DFB, 0xBF718F57, 0xBF71B08E, 0xBF71D19F, 0xBF71F28C,
   0xBF721352, 0xBF7233F4, 0xBF725470, 0xBF7274C7, 0xBF7294F8, 0xBF72B504, 0xBF72D4EB, 0xBF72F4AC,
   0xBF731447, 0xBF7333BE, 0xBF73530E, 0xBF737239, 0xBF73913F, 0xBF73B01F, 0xBF73CED9, 0xBF73ED6E,
   0xBF740BDD, 0xBF742A27, 0xBF74484B, 0xBF746649, 0xBF748422, 0xBF74A1D5, 0xBF74BF62, 0xBF74DCC9]

/-- Entries 1856 to 1919. -/
def cosRow29 : List Nat :=
  [0xBF74FA0B, 0xBF751727, 0xBF75341D, 0xBF7550ED, 0xBF756D97, 0xBF758A1C, 0xBF75A67B, 0xBF75C2B3,
   0xBF75DEC6, 0xBF75FAB3, 0xBF76167A, 0xBF76321B, 0xBF764D97, 0xBF7668EC, 0xBF76841B, 0xBF769F24,
   0xBF76BA07, 0xBF76D4C4, 0xBF76EF5B, 0xBF7709CC, 0xBF772417, 0xBF773E3C, 0xBF77583A, 0xBF777213,
   0xBF778BC5, 0xBF77A551, 0xBF77BEB7, 0xBF77D7F7, 0xBF77F110, 0xBF780A04, 0xBF7822D1, 0xBF783B77,
   0xBF7853F8, 0xBF786C52, 0xBF788486, 0xBF789C93, 0xBF78B47B, 0xBF78CC3B, 0xBF78E3D6, 0xBF78FB4A,
   0xBF791298, 0xBF7929BF, 0xBF7940C0, 0xBF79579A, 0xBF796E4E, 0xBF7984DC, 0xBF799B43, 0xBF79B183,
   0xBF79C79D, 0xBF79DD91, 0xBF79F35E, 0xBF7A0904, 0xBF7A1E84, 0xBF7A33DD, 0xBF7A4910, 0xBF7A5E1C,
   0xBF7A7302, 0xBF7A87C1, 0xBF7A9C59, 0xBF7AB0CB, 0xBF7AC516, 0xBF7AD93A, 0xBF7AED37, 0xBF7B010E]

/-- Entries 1920 to 1983. -/
def cosRow30 : List Nat :=
  [0xBF7B14BE, 0xBF7B2848, 0xBF7B3BAB, 0xBF7B4EE7, 0xBF7B61FC, 0xBF7B74EA, 0xBF7B87B2, 0xBF7B9A53,
   0xBF7BACCD, 0xBF7BBF20, 0xBF7BD14D, 0xBF7BE353, 0xBF7BF531, 0xBF7C06E9, 0xBF7C187A, 0xBF7C29E5,
   0xBF7C3B28, 0xBF7C4C44, 0xBF7C5D3A, 0xBF7C6E08, 0xBF7C7EB0, 0xBF7C8F31, 0xBF7C9F8A, 0xBF7CAFBD,
   0xBF7CBFC9, 0xBF7CCFAE, 0xBF7CDF6C, 0xBF7CEF03, 0xBF7CFE73, 0xBF7D0DBC, 0xBF7D1CDD, 0xBF7D2BD8,
   0xBF7D3AAC, 0xBF7D4959, 0xBF7D57DE, 0xBF7D663D, 0xBF7D7474, 0xBF7D8285, 0xBF7D906E, 0xBF7D9E30,
   0xBF7DABCC, 0xBF7DB940, 0xBF7DC68C, 0xBF7DD3B2, 0xBF7DE0B1, 0xBF7DED88, 0xBF7DFA38, 0xBF7E06C2,
   0xBF7E1324, 0xBF7E1F5E, 0xBF7E2B72, 0xBF7E375E, 0xBF7E4323, 0xBF7E4EC1, 0xBF7E5A38, 0xBF7E6588,
   0xBF7E70B0, 0xBF7E7BB1, 0xBF7E868B, 0xBF7E913D, 0xBF7E9BC9, 0xBF7EA62D, 0xBF7EB069, 0xBF7EBA7F]

/-- Entries 1984 to 2047. -/
def cosRow31 : List Nat :=
  [0xBF7EC46D, 0xBF7ECE34, 0xBF7ED7D4, 0xBF7EE14C, 0xBF7EEA9D, 0xBF7EF3C7, 0xBF7EFCC9, 0xBF7F05A4,
   0xBF7F0E58, 0xBF7F16E4, 0xBF7F1F49, 0xBF7F2787, 0xBF7F2F9D, 0xBF7F378C, 0xBF7F3F54, 0xBF7F46F4,
   0xBF7F4E6D, 0xBF7F55BF, 0xBF7F5CE9, 0xBF7F63EC, 0xBF7F6AC7, 0xBF7F717B, 0xBF7F7808, 0xBF7F7E6D,
   0xBF7F84AB, 0xBF7F8AC2, 0xBF7F90B1, 0xBF7F9678, 0xBF7F9C18, 0xBF7FA191, 0xBF7FA6E3, 0xBF7FAC0D,
   0xBF7FB10F, 0xBF7FB5EA, 0xBF7FBA9E, 0xBF7FBF2A, 0xBF7FC38F, 0xBF7FC7CC, 0xBF7FCBE2, 0xBF7FCFD1,
   0xBF7FD397, 0xBF7FD737, 0xBF7FDAAF, 0xBF7FDE00, 0xBF7FE129, 0xBF7FE42B, 0xBF7FE705, 0xBF7FE9B8,
   0xBF7FEC43, 0xBF7FEEA7, 0xBF7FF0E3, 0xBF7FF2F8, 0xBF7FF4E6, 0xBF7FF6AC, 0xBF7FF84A, 0xBF7FF9C1,
   0xBF7FFB11, 0xBF7FFC39, 0xBF7FFD39, 0xBF7FFE13, 0xBF7FFEC4, 0xBF7FFF4E, 0xBF7FFFB1, 0xBF7FFFEC]

/-- Entries 2048 to 2111. -/
def cosRow32 : List Nat :=
  [0xBF800000, 0xBF7FFFEC, 0xBF7FFFB1, 0xBF7FFF4E, 0xBF7FFEC4, 0xBF7FFE13, 0xBF7FFD39, 0xBF7FFC39,
   0xBF7FFB11, 0xBF7FF9C1, 0xBF7FF84A, 0xBF7FF6AC, 0xBF7FF4E6, 0xBF7FF2F8, 0xBF7FF0E3, 0xBF7FEEA7,
   0xBF7FEC43, 0xBF7FE9B8, 0xBF7FE705, 0xBF7FE42B, 0xBF7FE129, 0xBF7FDE00, 0xBF7FDAAF, 0xBF7FD737,
   0xBF7FD397, 0xBF7FCFD1, 0xBF7FCBE2, 0xBF7FC7CC, 0xBF7FC38F, 0xBF7FBF2A, 0xBF7FBA9E, 0xBF7FB5EA,
   0xBF7FB10F, 0xBF7FAC0D, 0xBF7FA6E3, 0xBF7FA191, 0xBF7F9C18, 0xBF7F9678, 0xBF7F90B1, 0xBF7F8AC2,
   0xBF7F84AB, 0xBF7F7E6D, 0xBF7F7808, 0xBF7F717B, 0xBF7F6AC7, 0xBF7F63EC, 0xBF7F5CE9, 0xBF7F55BF,
   0xBF7F4E6D, 0xBF7F46F4, 0xBF7F3F54, 0xBF7F378C, 0xBF7F2F9D, 0xBF7F2787, 0xBF7F1F49, 0xBF7F16E4,
   0xBF7F0E58, 0xBF7F05A4, 0xBF7EFCC9, 0xBF7EF3C7, 0xBF7EEA9D, 0xBF7EE14C, 0xBF7ED7D4, 0xBF7ECE34]

/-- Entries 2112 to 2175. -/
def cosRow33 : List Nat :=
  [0xBF7EC46D, 0xBF7EBA7F, 0xBF7EB069, 0xBF7EA62D, 0xBF7E9BC9, 0xBF7E913D, 0xBF7E868B, 0xBF7E7BB1,
   0xBF7E70B0, 0xBF7E6588, 0xBF7E5A38, 0xBF7E4EC1, 0xBF7E4323, 0xBF7E375E, 0xBF7E2B72, 0xBF7E1F5E,
   0xBF7E1324, 0xBF7E06C2, 0xBF7DFA38, 0xBF7DED88, 0xBF7DE0B1, 0xBF7DD3B2, 0xBF7DC68C, 0xBF7DB940,
   0xBF7DABCC, 0xBF7D9E30, 0xBF7D906E, 0xBF7D8285, 0xBF7D7474, 0xBF7D663D, 0xBF7D57DE, 0xBF7D4959,
   0xBF7D3AAC, 0xBF7D2BD8, 0xBF7D1CDD, 0xBF7D0DBC, 0xBF7CFE73, 0xBF7CEF03, 0xBF7CDF6C, 0xBF7CCFAE,
   0xBF7CBFC9, 0xBF7CAFBD, 0xBF7C9F8A, 0xBF7C8F31, 0xBF7C7EB0, 0xBF7C6E08, 0xBF7C5D3A, 0xBF7C4C44,
   0xBF7C3B28, 0xBF7C29E5, 0xBF7C187A, 0xBF7C06E9, 0xBF7BF531, 0xBF7BE353, 0xBF7BD14D, 0xBF7BBF20,
   0xBF7BACCD, 0xBF7B9A53, 0xBF7B87B2, 0xBF7B74EA, 0xBF7B61FC, 0xBF7B4EE7, 0xBF7B3BAB, 0xBF7B2848]

/-- Entries 2176 to 2239. -/
def cosRow34 : List Nat :=
  [0xBF7B14BE, 0xBF7B010E, 0xBF7AED37, 0xBF7AD93A, 0xBF7AC516, 0xBF7AB0CB, 0xBF7A9C59, 0xBF7A87C1,
   0xBF7A7302, 0xBF7A5E1C, 0xBF7A4910, 0xBF7A33DD, 0xBF7A1E84, 0xBF7A0904, 0xBF79F35E, 0xBF79DD91,
   0xBF79C79D, 0xBF79B183, 0xBF799B43, 0xBF7984DC, 0xBF796E4E, 0xBF79579A, 0xBF7940C0, 0xBF7929BF,
   0xBF791298, 0xBF78FB4A, 0xBF78E3D6, 0xBF78CC3B, 0xBF78B47B, 0xBF789C93, 0xBF788486, 0xBF786C52,
   0xBF7853F8, 0xBF783B77, 0xBF7822D1, 0xBF780A04, 0xBF77F110, 0xBF77D7F7, 0xBF77BEB7, 0xBF77A551,
   0xBF778BC5, 0xBF777213, 0xBF77583A, 0xBF773E3C, 0xBF772417, 0xBF7709CC, 0xBF76EF5B, 0xBF76D4C4,
   0xBF76BA07, 0xBF769F24, 0xBF76841B, 0xBF7668EC, 0xBF764D97, 0xBF76321B, 0xBF76167A, 0xBF75FAB3,
   0xBF75DEC6, 0xBF75C2B3, 0xBF75A67B, 0xBF758A1C, 0xBF756D97, 0xBF7550ED, 0xBF75341D, 0xBF751727]

/-- Entries 2240 to 2303. -/
def cosRow35 : List Nat :=
  [0xBF74FA0B, 0xBF74DCC9, 0xBF74BF62, 0xBF74A1D5, 0xBF748422, 0xBF746649, 0xBF74484B, 0xBF742A27,
   0xBF740BDD, 0xBF73ED6E, 0xBF73CED9, 0xBF73B01F, 0xBF73913F, 0xBF737239, 0xBF73530E, 0xBF7333BE,
   0xBF731447, 0xBF72F4AC, 0xBF72D4EB, 0xBF72B504, 0xBF7294F8, 0xBF7274C7, 0xBF725470, 0xBF7233F4,
   0xBF721352, 0xBF71F28C, 0xBF71D19F, 0xBF71B08E, 0xBF718F57, 0xBF716DFB, 0xBF714C7A, 0xBF712AD4,
   0xBF710908, 0xBF70E717, 0xBF70C501, 0xBF70A2C6, 0xBF708066, 0xBF705DE1, 0xBF703B37, 0xBF701867,
   0xBF6FF573, 0xBF6FD25A, 0xBF6FAF1B, 0xBF6F8BB8, 0xBF6F6830, 0xBF6F4483, 0xBF6F20B0, 0xBF6EFCBA,
   0xBF6ED89E, 0xBF6EB45D, 0xBF6E8FF8, 0xBF6E6B6D, 0xBF6E46BE, 0xBF6E21EB, 0xBF6DFCF2, 0xBF6DD7D5,
   0xBF6DB293, 0xBF6D8D2D, 0xBF6D67A1, 0xBF6D41F2, 0xBF6D1C1D, 0xBF6CF624, 0xBF6CD007, 0xBF6CA9C5]

/-- Entries 2304 to 2367. -/
def cosRow36 : List Nat :=
  [0xBF6C835E, 0xBF6C5CD4, 0xBF6C3624, 0xBF6C0F50, 0xBF6BE858, 0xBF6BC13B, 0xBF6B99FB, 0xBF6B7295,
   0xBF6B4B0C, 0xBF6B235E, 0xBF6AFB8C, 0xBF6AD395, 0xBF6AAB7B, 0xBF6A833C, 0xBF6A5AD9, 0xBF6A3252,
   0xBF6A09A7, 0xBF69E0D7, 0xBF69B7E4, 0xBF698ECC, 0xBF696591, 0xBF693C32, 0xBF6912AE, 0xBF68E907,
   0xBF68BF3C, 0xBF68954C, 0xBF686B39, 0xBF684103, 0xBF6816A8, 0xBF67EC29, 0xBF67C187, 0xBF6796C1,
   0xBF676BD8, 0xBF6740CA, 0xBF671599, 0xBF66EA45, 0xBF66BECC, 0xBF669330, 0xBF666771, 0xBF663B8E,
   0xBF660F88, 0xBF65E35E, 0xBF65B710, 0xBF658AA0, 0xBF655E0B, 0xBF653154, 0xBF650479, 0xBF64D77B,
   0xBF64AA59, 0xBF647D14, 0xBF644FAC, 0xBF642221, 0xBF63F473, 0xBF63C6A1, 0xBF6398AC, 0xBF636A95,
   0xBF633C5A, 0xBF630DFC, 0xBF62DF7B, 0xBF62B0D7, 0xBF628210, 0xBF625326, 0xBF62241A, 0xBF61F4EA]

/-- Entries 2368 to 2431. -/
def cosRow37 : List Nat :=
  [0xBF61C598, 0xBF619622, 0xBF61668A, 0xBF6136D0, 0xBF6106F2, 0xBF60D6F2, 0xBF60A6CF, 0xBF607689,
   0xBF604621, 0xBF601596, 0xBF5FE4E9, 0xBF5FB419, 0xBF5F8327, 0xBF5F5212, 0xBF5F20DB, 0xBF5EEF81,
   0xBF5EBE05, 0xBF5E8C67, 0xBF5E5AA6, 0xBF5E28C3, 0xBF5DF6BE, 0xBF5DC497, 0xBF5D924D, 0xBF5D5FE1,
   0xBF5D2D53, 0xBF5CFAA3, 0xBF5CC7D1, 0xBF5C94DD, 0xBF5C61C7, 0xBF5C2E8E, 0xBF5BFB34, 0xBF5BC7B8,
   0xBF5B941A, 0xBF5B605A, 0xBF5B2C79, 0xBF5AF875, 0xBF5AC450, 0xBF5A9009, 0xBF5A5BA0, 0xBF5A2716,
   0xBF59F26A, 0xBF59BD9C, 0xBF5988AD, 0xBF59539C, 0xBF591E6A, 0xBF58E916, 0xBF58B3A1, 0xBF587E0B,
   0xBF584853, 0xBF581279, 0xBF57DC7F, 0xBF57A663, 0xBF577026, 0xBF5739C7, 0xBF570348, 0xBF56CCA7,
   0xBF5695E5, 0xBF565F02, 0xBF5627FE, 0xBF55F0D9, 0xBF55B993, 0xBF55822C, 0xBF554AA4, 0xBF5512FB]

/-- Entries 2432 to 2495. -/
def cosRow38 : List Nat :=
  [0xBF54DB31, 0xBF54A347, 0xBF546B3B, 0xBF54330F, 0xBF53FAC3, 0xBF53C255, 0xBF5389C7, 0xBF535118,
   0xBF531849, 0xBF52DF59, 0xBF52A649, 0xBF526D18, 0xBF5233C6, 0xBF51FA54, 0xBF51C0C2, 0xBF518710,
   0xBF514D3D, 0xBF51134A, 0xBF50D937, 0xBF509F03, 0xBF5064AF, 0xBF502A3B, 0xBF4FEFA8, 0xBF4FB4F4,
   0xBF4F7A1F, 0xBF4F3F2B, 0xBF4F0417, 0xBF4EC8E4, 0xBF4E8D90, 0xBF4E521C, 0xBF4E1689, 0xBF4DDAD5,
   0xBF4D9F02, 0xBF4D6310, 0xBF4D26FD, 0xBF4CEACB, 0xBF4CAE79, 0xBF4C7208, 0xBF4C3578, 0xBF4BF8C7,
   0xBF4BBBF8, 0xBF4B7F09, 0xBF4B41FA, 0xBF4B04CC, 0xBF4AC77F, 0xBF4A8A13, 0xBF4A4C87, 0xBF4A0EDC,
   0xBF49D112, 0xBF499329, 0xBF495521, 0xBF4916FA, 0xBF48D8B3, 0xBF489A4E, 0xBF485BCA, 0xBF481D27,
   0xBF47DE65, 0xBF479F84, 0xBF476085, 0xBF472167, 0xBF46E22A, 0xBF46A2CE, 0xBF466354, 0xBF4623BB]

/-- Entries 2496 to 2559. -/
def cosRow39 : List Nat :=
  [0xBF45E403, 0xBF45A42D, 0xBF456439, 0xBF452426, 0xBF44E3F5, 0xBF44A3A5, 0xBF446337, 0xBF4422AB,
   0xBF43E200, 0xBF43A138, 0xBF436051, 0xBF431F4C, 0xBF42DE29, 0xBF429CE8, 0xBF425B89, 0xBF421A0B,
   0xBF41D870, 0xBF4196B7, 0xBF4154E1, 0xBF4112EC, 0xBF40D0DA, 0xBF408EA9, 0xBF404C5C, 0xBF4009F0,
   0xBF3FC767, 0xBF3F84C0, 0xBF3F41FC, 0xBF3EFF1B, 0xBF3EBC1B, 0xBF3E78FF, 0xBF3E35C5, 0xBF3DF26E,
   0xBF3DAEF9, 0xBF3D6B67, 0xBF3D27B8, 0xBF3CE3EC, 0xBF3CA003, 0xBF3C5BFC, 0xBF3C17D9, 0xBF3BD398,
   0xBF3B8F3B, 0xBF3B4AC1, 0xBF3B0629, 0xBF3AC175, 0xBF3A7CA4, 0xBF3A37B7, 0xBF39F2AC, 0xBF39AD85,
   0xBF396842, 0xBF3922E1, 0xBF38DD65, 0xBF3897CB, 0xBF385216, 0xBF380C43, 0xBF37C655, 0xBF37804A,
   0xBF373A23, 0xBF36F3DF, 0xBF36AD7F, 0xBF366704, 0xBF36206C, 0xBF35D9B8, 0xBF3592E7, 0xBF354BFB]

/-- Entries 2560 to 2623. -/
def cosRow40 : List Nat :=
  [0xBF3504F3, 0xBF34BDCF, 0xBF34768F, 0xBF342F34, 0xBF33E7BC, 0xBF33A029, 0xBF33587A, 0xBF3310AF,
   0xBF32C8C9, 0xBF3280C7, 0xBF3238AA, 0xBF31F071, 0xBF31A81D, 0xBF315FAD, 0xBF311722, 0xBF30CE7C,
   0xBF3085BB, 0xBF303CDE, 0xBF2FF3E6, 0xBF2FAAD3, 0xBF2F61A5, 0xBF2F185B, 0xBF2ECEF7, 0xBF2E8578,
   0xBF2E3BDE, 0xBF2DF229, 0xBF2DA859, 0xBF2D5E6F, 0xBF2D1469, 0xBF2CCA49, 0xBF2C800F, 0xBF2C35B9,
   0xBF2BEB4A, 0xBF2BA0BF, 0xBF2B561B, 0xBF2B0B5B, 0xBF2AC082, 0xBF2A758E, 0xBF2A2A80, 0xBF29DF57,
   0xBF299415, 0xBF2948B8, 0xBF28FD41, 0xBF28B1B0, 0xBF286605, 0xBF281A40, 0xBF27CE61, 0xBF278268,
   0xBF273656, 0xBF26EA2A, 0xBF269DE3, 0xBF265184, 0xBF26050A, 0xBF25B877, 0xBF256BCB, 0xBF251F04,
   0xBF24D225, 0xBF24852C, 0xBF24381A, 0xBF23EAEE, 0xBF239DA9, 0xBF23504B, 0xBF2302D3, 0xBF22B543]

/-- Entries 2624 to 2687. -/
def cosRow41 : List Nat :=
  [0xBF226799, 0xBF2219D7, 0xBF21CBFB, 0xBF217E06, 0xBF212FF9, 0xBF20E1D2, 0xBF209393, 0xBF20453B,
   0xBF1FF6CB, 0xBF1FA841, 0xBF1F599F, 0xBF1F0AE5, 0xBF1EBC12, 0xBF1E6D26, 0xBF1E1E22, 0xBF1DCF06,
   0xBF1D7FD1, 0xBF1D3084, 0xBF1CE11F, 0xBF1C91A2, 0xBF1C420C, 0xBF1BF25F, 0xBF1BA299, 0xBF1B52BB,
   0xBF1B02C6, 0xBF1AB2B8, 0xBF1A6293, 0xBF1A1255, 0xBF19C200, 0xBF197194, 0xBF19210F, 0xBF18D073,
   0xBF187FC0, 0xBF182EF5, 0xBF17DE12, 0xBF178D18, 0xBF173C07, 0xBF16EADE, 0xBF16999F, 0xBF164847,
   0xBF15F6D9, 0xBF15A554, 0xBF1553B7, 0xBF150204, 0xBF14B039, 0xBF145E58, 0xBF140C5F, 0xBF13BA50,
   0xBF13682A, 0xBF1315EE, 0xBF12C39A, 0xBF127130, 0xBF121EB0, 0xBF11CC19, 0xBF11796B, 0xBF1126A7,
   0xBF10D3CD, 0xBF1080DC, 0xBF102DD5, 0xBF0FDAB8, 0xBF0F8784, 0xBF0F343B, 0xBF0EE0DB, 0xBF0E8D65]

/-- Entries 2688 to 2751. -/
def cosRow42 : List Nat :=
  [0xBF0E39DA, 0xBF0DE638, 0xBF0D9281, 0xBF0D3EB3, 0xBF0CEAD0, 0xBF0C96D7, 0xBF0C42C9, 0xBF0BEEA5,
   0xBF0B9A6B, 0xBF0B461C, 0xBF0AF1B7, 0xBF0A9D3D, 0xBF0A48AD, 0xBF09F409, 0xBF099F4E, 0xBF094A7F,
   0xBF08F59B, 0xBF08A0A1, 0xBF084B92, 0xBF07F66F, 0xBF07A136, 0xBF074BE8, 0xBF06F686, 0xBF06A10E,
   0xBF064B82, 0xBF05F5E2, 0xBF05A02C, 0xBF054A62, 0xBF04F484, 0xBF049E91, 0xBF044889, 0xBF03F26D,
   0xBF039C3D, 0xBF0345F8, 0xBF02EF9F, 0xBF029932, 0xBF0242B1, 0xBF01EC1C, 0xBF019573, 0xBF013EB5,
   0xBF00E7E4, 0xBF0090FF, 0xBF003A06, 0xBEFFC5F3, 0xBEFF17B2, 0xBEFE694A, 0xBEFDBABB, 0xBEFD0C04,
   0xBEFC5D27, 0xBEFBAE22, 0xBEFAFEF7, 0xBEFA4FA5, 0xBEF9A02D, 0xBEF8F08E, 0xBEF840C8, 0xBEF790DC,
   0xBEF6E0CB, 0xBEF63093, 0xBEF58035, 0xBEF4CFB1, 0xBEF41F07, 0xBEF36E38, 0xBEF2BD43, 0xBEF20C29]

/-- Entries 2752 to 2815. -/
def cosRow43 : List Nat :=
  [0xBEF15AEA, 0xBEF0A985, 0xBEEFF7FB, 0xBEEF464C, 0xBEEE9479, 0xBEEDE280, 0xBEED3063, 0xBEEC7E21,
   0xBEEBCBBB, 0xBEEB1930, 0xBEEA6681, 0xBEE9B3AE, 0xBEE900B7, 0xBEE84D9C, 0xBEE79A5D, 0xBEE6E6FB,
   0xBEE63375, 0xBEE57FCB, 0xBEE4CBFE, 0xBEE4180E, 0xBEE363FA, 0xBEE2AFC4, 0xBEE1FB6A, 0xBEE146EE,
   0xBEE0924F, 0xBEDFDD8D, 0xBEDF28A9, 0xBEDE73A2, 0xBEDDBE79, 0xBEDD092E, 0xBEDC53C1, 0xBEDB9E31,
   0xBEDAE880, 0xBEDA32AD, 0xBED97CB9, 0xBED8C6A3, 0xBED8106B, 0xBED75A13, 0xBED6A399, 0xBED5ECFD,
   0xBED53641, 0xBED47F64, 0xBED3C867, 0xBED31148, 0xBED25A09, 0xBED1A2AA, 0xBED0EB2A, 0xBED0338A,
   0xBECF7BCA, 0xBECEC3EA, 0xBECE0BEA, 0xBECD53CA, 0xBECC9B8B, 0xBECBE32C, 0xBECB2AAE, 0xBECA7210,
   0xBEC9B953, 0xBEC90077, 0xBEC8477C, 0xBEC78E62, 0xBEC6D529, 0xBEC61BD2, 0xBEC5625C, 0xBEC4A8C8]

/-- Entries 2816 to 2879. -/
def cosRow44 : List Nat :=
  [0xBEC3EF15, 0xBEC33544, 0xBEC27B55, 0xBEC1C148, 0xBEC1071E, 0xBEC04CD5, 0xBEBF926F, 0xBEBED7EB,
   0xBEBE1D4A, 0xBEBD628B, 0xBEBCA7AF, 0xBEBBECB6, 0xBEBB31A0, 0xBEBA766E, 0xBEB9BB1E, 0xBEB8FFB2,
   0xBEB8442A, 0xBEB78884, 0xBEB6CCC3, 0xBEB610E6, 0xBEB554EC, 0xBEB498D6, 0xBEB3DCA5, 0xBEB32058,
   0xBEB263EF, 0xBEB1A76B, 0xBEB0EACB, 0xBEB02E10, 0xBEAF713A, 0xBEAEB449, 0xBEADF73C, 0xBEAD3A15,
   0xBEAC7CD4, 0xBEABBF77, 0xBEAB0201, 0xBEAA446F, 0xBEA986C4, 0xBEA8C8FE, 0xBEA80B1F, 0xBEA74D25,
   0xBEA68F12, 0xBEA5D0E5, 0xBEA5129F, 0xBEA4543F, 0xBEA395C5, 0xBEA2D733, 0xBEA21887, 0xBEA159C2,
   0xBEA09AE5, 0xBE9FDBEE, 0xBE9F1CDF, 0xBE9E5DB8, 0xBE9D9E78, 0xBE9CDF20, 0xBE9C1FAF, 0xBE9B6027,
   0xBE9AA086, 0xBE99E0CE, 0xBE9920FE, 0xBE986116, 0xBE97A117, 0xBE96E100, 0xBE9620D2, 0xBE95608D]

/-- Entries 2880 to 2943. -/
def cosRow45 : List Nat :=
  [0xBE94A031, 0xBE93DFBF, 0xBE931F35, 0xBE925E94, 0xBE919DDD, 0xBE90DD10, 0xBE901C2C, 0xBE8F5B32,
   0xBE8E9A22, 0xBE8DD8FC, 0xBE8D17C0, 0xBE8C566E, 0xBE8B9507, 0xBE8AD38A, 0xBE8A11F7, 0xBE895050,
   0xBE888E93, 0xBE87CCC1, 0xBE870ADA, 0xBE8648DF, 0xBE8586CE, 0xBE84C4AA, 0xBE840270, 0xBE834022,
   0xBE827DC0, 0xBE81BB4A, 0xBE80F8C0, 0xBE803622, 0xBE7EE6E1, 0xBE7D6156, 0xBE7BDBA4, 0xBE7A55CB,
   0xBE78CFCC, 0xBE7749A6, 0xBE75C35A, 0xBE743CE8, 0xBE72B651, 0xBE712F94, 0xBE6FA8B2, 0xBE6E21AB,
   0xBE6C9A7F, 0xBE6B132F, 0xBE698BBA, 0xBE680422, 0xBE667C66, 0xBE64F486, 0xBE636C83, 0xBE61E45C,
   0xBE605C13, 0xBE5ED3A8, 0xBE5D4B1A, 0xBE5BC26A, 0xBE5A3997, 0xBE58B0A4, 0xBE57278F, 0xBE559E58,
   0xBE541501, 0xBE528B89, 0xBE5101F1, 0xBE4F7838, 0xBE4DEE60, 0xBE4C6467, 0xBE4ADA4F, 0xBE495018]

/-- Entries 2944 to 3007. -/
def cosRow46 : List Nat :=
  [0xBE47C5C2, 0xBE463B4D, 0xBE44B0B9, 0xBE432607, 0xBE419B37, 0xBE401049, 0xBE3E853E, 0xBE3CFA15,
   0xBE3B6ECF, 0xBE39E36C, 0xBE3857EC, 0xBE36CC50, 0xBE354098, 0xBE33B4C4, 0xBE3228D4, 0xBE309CC9,
   0xBE2F10A2, 0xBE2D8461, 0xBE2BF804, 0xBE2A6B8D, 0xBE28DEFC, 0xBE275251, 0xBE25C58C, 0xBE2438AD,
   0xBE22ABB6, 0xBE211EA5, 0xBE1F917B, 0xBE1E0438, 0xBE1C76DE, 0xBE1AE96B, 0xBE195BE0, 0xBE17CE3D,
   0xBE164083, 0xBE14B2B2, 0xBE1324CA, 0xBE1196CC, 0xBE1008B7, 0xBE0E7A8B, 0xBE0CEC4A, 0xBE0B5DF3,
   0xBE09CF86, 0xBE084105, 0xBE06B26E, 0xBE0523C2, 0xBE039502, 0xBE02062E, 0xBE007745, 0xBDFDD092,
   0xBDFAB273, 0xBDF7942C, 0xBDF475C0, 0xBDF1572E, 0xBDEE3876, 0xBDEB199A, 0xBDE7FA9A, 0xBDE4DB76,
   0xBDE1BC2E, 0xBDDE9CC4, 0xBDDB7D37, 0xBDD85D89, 0xBDD53DB9, 0xBDD21DC8, 0xBDCEFDB7, 0xBDCBDD86]

/-- Entries 3008 to 3071. -/
def cosRow47 : List Nat :=
  [0xBDC8BD36, 0xBDC59CC6, 0xBDC27C39, 0xBDBF5B8D, 0xBDBC3AC3, 0xBDB919DD, 0xBDB5F8DA, 0xBDB2D7BB,
   0xBDAFB680, 0xBDAC952B, 0xBDA973BA, 0xBDA65230, 0xBDA3308C, 0xBDA00ECF, 0xBD9CECF9, 0xBD99CB0A,
   0xBD96A905, 0xBD9386E7, 0xBD9064B4, 0xBD8D426A, 0xBD8A200A, 0xBD86FD94, 0xBD83DB0A, 0xBD80B86C,
   0xBD7B2B74, 0xBD74E5E9, 0xBD6EA038, 0xBD685A62, 0xBD621469, 0xBD5BCE4C, 0xBD55880E, 0xBD4F41AF,
   0xBD48FB30, 0xBD42B491, 0xBD3C6DD5, 0xBD3626FC, 0xBD2FE007, 0xBD2998F6, 0xBD2351CB, 0xBD1D0A88,
   0xBD16C32C, 0xBD107BB8, 0xBD0A342F, 0xBD03EC90, 0xBCFB49BA, 0xBCEEBA2C, 0xBCE22A7A, 0xBCD59AA6,
   0xBCC90AB0, 0xBCBC7A9B, 0xBCAFEA69, 0xBCA35A1C, 0xBC96C9B6, 0xBC8A3938, 0xBC7B514B, 0xBC622FFF,
   0xBC490E90, 0xBC2FED02, 0xBC16CB58, 0xBBFB5330, 0xBBC90F88, 0xBB96CBC1, 0xBB490FC6, 0xBAC90FD5]

/-- Entries 3072 to 3135. -/
def cosRow48 : List Nat :=
  [0x00000000, 0x3AC90FD5, 0x3B490FC6, 0x3B96CBC1, 0x3BC90F88, 0x3BFB5330, 0x3C16CB58, 0x3C2FED02,
   0x3C490E90, 0x3C622FFF, 0x3C7B514B, 0x3C8A3938, 0x3C96C9B6, 0x3CA35A1C, 0x3CAFEA69, 0x3CBC7A9B,
   0x3CC90AB0, 0x3CD59AA6, 0x3CE22A7A, 0x3CEEBA2C, 0x3CFB49BA, 0x3D03EC90, 0x3D0A342F, 0x3D107BB8,
   0x3D16C32C, 0x3D1D0A88, 0x3D2351CB, 0x3D2998F6, 0x3D2FE007, 0x3D3626FC, 0x3D3C6DD5, 0x3D42B491,
   0x3D48FB30, 0x3D4F41AF, 0x3D55880E, 0x3D5BCE4C, 0x3D621469, 0x3D685A62, 0x3D6EA038, 0x3D74E5E9,
   0x3D7B2B74, 0x3D80B86C, 0x3D83DB0A, 0x3D86FD94, 0x3D8A200A, 0x3D8D426A, 0x3D9064B4, 0x3D9386E7,
   0x3D96A905, 0x3D99CB0A, 0x3D9CECF9, 0x3DA00ECF, 0x3DA3308C, 0x3DA65230, 0x3DA973BA, 0x3DAC952B,
   0x3DAFB680, 0x3DB2D7BB, 0x3DB5F8DA, 0x3DB919DD, 0x3DBC3AC3, 0x3DBF5B8D, 0x3DC27C39, 0x3DC59CC6]

/-- Entries 3136 to 3199. -/
def cosRow49 : List Nat :=
  [0x3DC8BD36, 0x3DCBDD86, 0x3DCEFDB7, 0x3DD21DC8, 0x3DD53DB9, 0x3DD85D89, 0x3DDB7D37, 0x3DDE9CC4,
   0x3DE1BC2E, 0x3DE4DB76, 0x3DE7FA9A, 0x3DEB199A, 0x3DEE3876, 0x3DF1572E, 0x3DF475C0, 0x3DF7942C,
   0x3DFAB273, 0x3DFDD092, 0x3E007745, 0x3E02062E, 0x3E039502, 0x3E0523C2, 0x3E06B26E, 0x3E084105,
   0x3E09CF86, 0x3E0B5DF3, 0x3E0CEC4A, 0x3E0E7A8B, 0x3E1008B7, 0x3E1196CC, 0x3E1324CA, 0x3E14B2B2,
   0x3E164083, 0x3E17CE3D, 0x3E195BE0, 0x3E1AE96B, 0x3E1C76DE, 0x3E1E0438, 0x3E1F917B, 0x3E211EA5,
   0x3E22ABB6, 0x3E2438AD, 0x3E25C58C, 0x3E275251, 0x3E28DEFC, 0x3E2A6B8D, 0x3E2BF804, 0x3E2D8461,
   0x3E2F10A2, 0x3E309CC9, 0x3E3228D4, 0x3E33B4C4, 0x3E354098, 0x3E36CC50, 0x3E3857EC, 0x3E39E36C,
   0x3E3B6ECF, 0x3E3CFA15, 0x3E3E853E, 0x3E401049, 0x3E419B37, 0x3E432607, 0x3E44B0B9, 0x3E463B4D]

/-- Entries 3200 to 3263. -/
def cosRow50 : List Nat :=
  [0x3E47C5C2, 0x3E495018, 0x3E4ADA4F, 0x3E4C6467, 0x3E4DEE60, 0x3E4F7838, 0x3E5101F1, 0x3E528B89,
   0x3E541501, 0x3E559E58, 0x3E57278F, 0x3E58B0A4, 0x3E5A3997, 0x3E5BC26A, 0x3E5D4B1A, 0x3E5ED3A8,
   0x3E605C13, 0x3E61E45C, 0x3E636C83, 0x3E64F486, 0x3E667C66, 0x3E680422, 0x3E698BBA, 0x3E6B132F,
   0x3E6C9A7F, 0x3E6E21AB, 0x3E6FA8B2, 0x3E712F94, 0x3E72B651, 0x3E743CE8, 0x3E75C35A, 0x3E7749A6,
   0x3E78CFCC, 0x3E7A55CB, 0x3E7BDBA4, 0x3E7D6156, 0x3E7EE6E1, 0x3E803622, 0x3E80F8C0, 0x3E81BB4A,
   0x3E827DC0, 0x3E834022, 0x3E840270, 0x3E84C4AA, 0x3E8586CE, 0x3E8648DF, 0x3E870ADA, 0x3E87CCC1,
   0x3E888E93, 0x3E895050, 0x3E8A11F7, 0x3E8AD38A, 0x3E8B9507, 0x3E8C566E, 0x3E8D17C0, 0x3E8DD8FC,
   0x3E8E9A22, 0x3E8F5B32, 0x3E901C2C, 0x3E90DD10, 0x3E919DDD, 0x3E925E94, 0x3E931F35, 0x3E93DFBF]

/-- Entries 3264 to 3327. -/
def cosRow51 : List Nat :=
  [0x3E94A031, 0x3E95608D, 0x3E9620D2, 0x3E96E100, 0x3E97A117, 0x3E986116, 0x3E9920FE, 0x3E99E0CE,
   0x3E9AA086, 0x3E9B6027, 0x3E9C1FAF, 0x3E9CDF20, 0x3E9D9E78, 0x3E9E5DB8, 0x3E9F1CDF, 0x3E9FDBEE,
   0x3EA09AE5, 0x3EA159C2, 0x3EA21887, 0x3EA2D733, 0x3EA395C5, 0x3EA4543F, 0x3EA5129F, 0x3EA5D0E5,
   0x3EA68F12, 0x3EA74D25, 0x3EA80B1F, 0x3EA8C8FE, 0x3EA986C4, 0x3EAA446F, 0x3EAB0201, 0x3EABBF77,
   0x3EAC7CD4, 0x3EAD3A15, 0x3EADF73C, 0x3EAEB449, 0x3EAF713A, 0x3EB02E10, 0x3EB0EACB, 0x3EB1A76B,
   0x3EB263EF, 0x3EB32058, 0x3EB3DCA5, 0x3EB498D6, 0x3EB554EC, 0x3EB610E6, 0x3EB6CCC3, 0x3EB78884,
   0x3EB8442A, 0x3EB8FFB2, 0x3EB9BB1E, 0x3EBA766E, 0x3EBB31A0, 0x3EBBECB6, 0x3EBCA7AF, 0x3EBD628B,
   0x3EBE1D4A, 0x3EBED7EB, 0x3EBF926F, 0x3EC04CD5, 0x3EC1071E, 0x3EC1C148, 0x3EC27B55, 0x3EC33544]

/-- Entries 3328 to 3391. -/
def cosRow52 : List Nat :=
  [0x3EC3EF15, 0x3EC4A8C8, 0x3EC5625C, 0x3EC61BD2, 0x3EC6D529, 0x3EC78E62, 0x3EC8477C, 0x3EC90077,
   0x3EC9B953, 0x3ECA7210, 0x3ECB2AAE, 0x3ECBE32C, 0x3ECC9B8B, 0x3ECD53CA, 0x3ECE0BEA, 0x3ECEC3EA,
   0x3ECF7BCA, 0x3ED0338A, 0x3ED0EB2A, 0x3ED1A2AA, 0x3ED25A09, 0x3ED31148, 0x3ED3C867, 0x3ED47F64,
   0x3ED53641, 0x3ED5ECFD, 0x3ED6A399, 0x3ED75A13, 0x3ED8106B, 0x3ED8C6A3, 0x3ED97CB9, 0x3EDA32AD,
   0x3EDAE880, 0x3EDB9E31, 0x3EDC53C1, 0x3EDD092E, 0x3EDDBE79, 0x3EDE73A2, 0x3EDF28A9, 0x3EDFDD8D,
   0x3EE0924F, 0x3EE146EE, 0x3EE1FB6A, 0x3EE2AFC4, 0x3EE363FA, 0x3EE4180E, 0x3EE4CBFE, 0x3EE57FCB,
   0x3EE63375, 0x3EE6E6FB, 0x3EE79A5D, 0x3EE84D9C, 0x3EE900B7, 0x3EE9B3AE, 0x3EEA6681, 0x3EEB1930,
   0x3EEBCBBB, 0x3EEC7E21, 0x3EED3063, 0x3EEDE280, 0x3EEE9479, 0x3EEF464C, 0x3EEFF7FB, 0x3EF0A985]

/-- Entries 3392 to 3455. -/
def cosRow53 : List Nat :=
  [0x3EF15AEA, 0x3EF20C29, 0x3EF2BD43, 0x3EF36E38, 0x3EF41F07, 0x3EF4CFB1, 0x3EF58035, 0x3EF63093,
   0x3EF6E0CB, 0x3EF790DC, 0x3EF840C8, 0x3EF8F08E, 0x3EF9A02D, 0x3EFA4FA5, 0x3EFAFEF7, 0x3EFBAE22,
   0x3EFC5D27, 0x3EFD0C04, 0x3EFDBABB, 0x3EFE694A, 0x3EFF17B2, 0x3EFFC5F3, 0x3F003A06, 0x3F0090FF,
   0x3F00E7E4, 0x3F013EB5, 0x3F019573, 0x3F01EC1C, 0x3F0242B1, 0x3F029932, 0x3F02EF9F, 0x3F0345F8,
   0x3F039C3D, 0x3F03F26D, 0x3F044889, 0x3F049E91, 0x3F04F484, 0x3F054A62, 0x3F05A02C, 0x3F05F5E2,
   0x3F064B82, 0x3F06A10E, 0x3F06F686, 0x3F074BE8, 0x3F07A136, 0x3F07F66F, 0x3F084B92, 0x3F08A0A1,
   0x3F08F59B, 0x3F094A7F, 0x3F099F4E, 0x3F09F409, 0x3F0A48AD, 0x3F0A9D3D, 0x3F0AF1B7, 0x3F0B461C,
   0x3F0B9A6B, 0x3F0BEEA5, 0x3F0C42C9, 0x3F0C96D7, 0x3F0CEAD0, 0x3F0D3EB3, 0x3F0D9281, 0x3F0DE638]

/-- Entries 3456 to 3519. -/
def cosRow54 : List Nat :=
  [0x3F0E39DA, 0x3F0E8D65, 0x3F0EE0DB, 0x3F0F343B, 0x3F0F8784, 0x3F0FDAB8, 0x3F102DD5, 0x3F1080DC,
   0x3F10D3CD, 0x3F1126A7, 0x3F11796B, 0x3F11CC19, 0x3F121EB0, 0x3F127130, 0x3F12C39A, 0x3F1315EE,
   0x3F13682A, 0x3F13BA50, 0x3F140C5F, 0x3F145E58, 0x3F14B039, 0x3F150204, 0x3F1553B7, 0x3F15A554,
   0x3F15F6D9, 0x3F164847, 0x3F16999F, 0x3F16EADE, 0x3F173C07, 0x3F178D18, 0x3F17DE12, 0x3F182EF5,
   0x3F187FC0, 0x3F18D073, 0x3F19210F, 0x3F197194, 0x3F19C200, 0x3F1A1255, 0x3F1A6293, 0x3F1AB2B8,
   0x3F1B02C6, 0x3F1B52BB, 0x3F1BA299, 0x3F1BF25F, 0x3F1C420C, 0x3F1C91A2, 0x3F1CE11F, 0x3F1D3084,
   0x3F1D7FD1, 0x3F1DCF06, 0x3F1E1E22, 0x3F1E6D26, 0x3F1EBC12, 0x3F1F0AE5, 0x3F1F599F, 0x3F1FA841,
   0x3F1FF6CB, 0x3F20453B, 0x3F209393, 0x3F20E1D2, 0x3F212FF9, 0x3F217E06, 0x3F21CBFB, 0x3F2219D7]

/-- Entries 3520 to 3583. -/
def cosRow55 : List Nat :=
  [0x3F226799, 0x3F22B543, 0x3F2302D3, 0x3F23504B, 0x3F239DA9, 0x3F23EAEE, 0x3F24381A, 0x3F24852C,
   0x3F24D225, 0x3F251F04, 0x3F256BCB, 0x3F25B877, 0x3F26050A, 0x3F265184, 0x3F269DE3, 0x3F26EA2A,
   0x3F273656, 0x3F278268, 0x3F27CE61, 0x3F281A40, 0x3F286605, 0x3F28B1B0, 0x3F28FD41, 0x3F2948B8,
   0x3F299415, 0x3F29DF57, 0x3F2A2A80, 0x3F2A758E, 0x3F2AC082, 0x3F2B0B5B, 0x3F2B561B, 0x3F2BA0BF,
   0x3F2BEB4A, 0x3F2C35B9, 0x3F2C800F, 0x3F2CCA49, 0x3F2D1469, 0x3F2D5E6F, 0x3F2DA859, 0x3F2DF229,
   0x3F2E3BDE, 0x3F2E8578, 0x3F2ECEF7, 0x3F2F185B, 0x3F2F61A5, 0x3F2FAAD3, 0x3F2FF3E6, 0x3F303CDE,
   0x3F3085BB, 0x3F30CE7C, 0x3F311722, 0x3F315FAD, 0x3F31A81D, 0x3F31F071, 0x3F3238AA, 0x3F3280C7,
   0x3F32C8C9, 0x3F3310AF, 0x3F33587A, 0x3F33A029, 0x3F33E7BC, 0x3F342F34, 0x3F34768F, 0x3F34BDCF]

/-- Entries 3584 to 3647. -/
def cosRow56 : List Nat :=
  [0x3F3504F3, 0x3F354BFB, 0x3F3592E7, 0x3F35D9B8, 0x3F36206C, 0x3F366704, 0x3F36AD7F, 0x3F36F3DF,
   0x3F373A23, 0x3F37804A, 0x3F37C655, 0x3F380C43, 0x3F385216, 0x3F3897CB, 0x3F38DD65, 0x3F3922E1,
   0x3F396842, 0x3F39AD85, 0x3F39F2AC, 0x3F3A37B7, 0x3F3A7CA4, 0x3F3AC175, 0x3F3B0629, 0x3F3B4AC1,
   0x3F3B8F3B, 0x3F3BD398, 0x3F3C17D9, 0x3F3C5BFC, 0x3F3CA003, 0x3F3CE3EC, 0x3F3D27B8, 0x3F3D6B67,
   0x3F3DAEF9, 0x3F3DF26E, 0x3F3E35C5, 0x3F3E78FF, 0x3F3EBC1B, 0x3F3EFF1B, 0x3F3F41FC, 0x3F3F84C0,
   0x3F3FC767, 0x3F4009F0, 0x3F404C5C, 0x3F408EA9, 0x3F40D0DA, 0x3F4112EC, 0x3F4154E1, 0x3F4196B7,
   0x3F41D870, 0x3F421A0B, 0x3F425B89, 0x3F429CE8, 0x3F42DE29, 0x3F431F4C, 0x3F436051, 0x3F43A138,
   0x3F43E200, 0x3F4422AB, 0x3F446337, 0x3F44A3A5, 0x3F44E3F5, 0x3F452426, 0x3F456439, 0x3F45A42D]

/-- Entries 3648 to 3711. -/
def cosRow57 : List Nat :=
  [0x3F45E403, 0x3F4623BB, 0x3F466354, 0x3F46A2CE, 0x3F46E22A, 0x3F472167, 0x3F476085, 0x3F479F84,
   0x3F47DE65, 0x3F481D27, 0x3F485BCA, 0x3F489A4E, 0x3F48D8B3, 0x3F4916FA, 0x3F495521, 0x3F499329,
   0x3F49D112, 0x3F4A0EDC, 0x3F4A4C87, 0x3F4A8A13, 0x3F4AC77F, 0x3F4B04CC, 0x3F4B41FA, 0x3F4B7F09,
   0x3F4BBBF8, 0x3F4BF8C7, 0x3F4C3578, 0x3F4C7208, 0x3F4CAE79, 0x3F4CEACB, 0x3F4D26FD, 0x3F4D6310,
   0x3F4D9F02, 0x3F4DDAD5, 0x3F4E1689, 0x3F4E521C, 0x3F4E8D90, 0x3F4EC8E4, 0x3F4F0417, 0x3F4F3F2B,
   0x3F4F7A1F, 0x3F4FB4F4, 0x3F4FEFA8, 0x3F502A3B, 0x3F5064AF, 0x3F509F03, 0x3F50D937, 0x3F51134A,
   0x3F514D3D, 0x3F518710, 0x3F51C0C2, 0x3F51FA54, 0x3F5233C6, 0x3F526D18, 0x3F52A649, 0x3F52DF59,
   0x3F531849, 0x3F535118, 0x3F5389C7, 0x3F53C255, 0x3F53FAC3, 0x3F54330F, 0x3F546B3B, 0x3F54A347]

/-- Entries 3712 to 3775. -/
def cosRow58 : List Nat :=
  [0x3F54DB31, 0x3F5512FB, 0x3F554AA4, 0x3F55822C, 0x3F55B993, 0x3F55F0D9, 0x3F5627FE, 0x3F565F02,
   0x3F5695E5, 0x3F56CCA7, 0x3F570348, 0x3F5739C7, 0x3F577026, 0x3F57A663, 0x3F57DC7F, 0x3F581279,
   0x3F584853, 0x3F587E0B, 0x3F58B3A1, 0x3F58E916, 0x3F591E6A, 0x3F59539C, 0x3F5988AD, 0x3F59BD9C,
   0x3F59F26A, 0x3F5A2716, 0x3F5A5BA0, 0x3F5A9009, 0x3F5AC450, 0x3F5AF875, 0x3F5B2C79, 0x3F5B605A,
   0x3F5B941A, 0x3F5BC7B8, 0x3F5BFB34, 0x3F5C2E8E, 0x3F5C61C7, 0x3F5C94DD, 0x3F5CC7D1, 0x3F5CFAA3,
   0x3F5D2D53, 0x3F5D5FE1, 0x3F5D924D, 0x3F5DC497, 0x3F5DF6BE, 0x3F5E28C3, 0x3F5E5AA6, 0x3F5E8C67,
   0x3F5EBE05, 0x3F5EEF81, 0x3F5F20DB, 0x3F5F5212, 0x3F5F8327, 0x3F5FB419, 0x3F5FE4E9, 0x3F601596,
   0x3F604621, 0x3F607689, 0x3F60A6CF, 0x3F60D6F2, 0x3F6106F2, 0x3F6136D0, 0x3F61668A, 0x3F619622]

/-- Entries 3776 to 3839. -/
def cosRow59 : List Nat :=
  [0x3F61C598, 0x3F61F4EA, 0x3F62241A, 0x3F625326, 0x3F628210, 0x3F62B0D7, 0x3F62DF7B, 0x3F630DFC,
   0x3F633C5A, 0x3F636A95, 0x3F6398AC, 0x3F63C6A1, 0x3F63F473, 0x3F642221, 0x3F644FAC, 0x3F647D14,
   0x3F64AA59, 0x3F64D77B, 0x3F650479, 0x3F653154, 0x3F655E0B, 0x3F658AA0, 0x3F65B710, 0x3F65E35E,
   0x3F660F88, 0x3F663B8E, 0x3F666771, 0x3F669330, 0x3F66BECC, 0x3F66EA45, 0x3F671599, 0x3F6740CA,
   0x3F676BD8, 0x3F6796C1, 0x3F67C187, 0x3F67EC29, 0x3F6816A8, 0x3F684103, 0x3F686B39, 0x3F68954C,
   0x3F68BF3C, 0x3F68E907, 0x3F6912AE, 0x3F693C32, 0x3F696591, 0x3F698ECC, 0x3F69B7E4, 0x3F69E0D7,
   0x3F6A09A7, 0x3F6A3252, 0x3F6A5AD9, 0x3F6A833C, 0x3F6AAB7B, 0x3F6AD395, 0x3F6AFB8C, 0x3F6B235E,
   0x3F6B4B0C, 0x3F6B7295, 0x3F6B99FB, 0x3F6BC13B, 0x3F6BE858, 0x3F6C0F50, 0x3F6C3624, 0x3F6C5CD4]

/-- Entries 3840 to 3903. -/
def cosRow60 : List Nat :=
  [0x3F6C835E, 0x3F6CA9C5, 0x3F6CD007, 0x3F6CF624, 0x3F6D1C1D, 0x3F6D41F2, 0x3F6D67A1, 0x3F6D8D2D,
   0x3F6DB293, 0x3F6DD7D5, 0x3F6DFCF2, 0x3F6E21EB, 0x3F6E46BE, 0x3F6E6B6D, 0x3F6E8FF8, 0x3F6EB45D,
   0x3F6ED89E, 0x3F6EFCBA, 0x3F6F20B0, 0x3F6F4483, 0x3F6F6830, 0x3F6F8BB8, 0x3F6FAF1B, 0x3F6FD25A,
   0x3F6FF573, 0x3F701867, 0x3F703B37, 0x3F705DE1, 0x3F708066, 0x3F70A2C6, 0x3F70C501, 0x3F70E717,
   0x3F710908, 0x3F712AD4, 0x3F714C7A, 0x3F716DFB, 0x3F718F57, 0x3F71B08E, 0x3F71D19F, 0x3F71F28C,
   0x3F721352, 0x3F7233F4, 0x3F725470, 0x3F7274C7, 0x3F7294F8, 0x3F72B504, 0x3F72D4EB, 0x3F72F4AC,
   0x3F731447, 0x3F7333BE, 0x3F73530E, 0x3F737239, 0x3F73913F, 0x3F73B01F, 0x3F73CED9, 0x3F73ED6E,
   0x3F740BDD, 0x3F742A27, 0x3F74484B, 0x3F746649, 0x3F748422, 0x3F74A1D5, 0x3F74BF62, 0x3F74DCC9]

/-- Entries 3904 to 3967. -/
def cosRow61 : List Nat :=
  [0x3F74FA0B, 0x3F751727, 0x3F75341D, 0x3F7550ED, 0x3F756D97, 0x3F758A1C, 0x3F75A67B, 0x3F75C2B3,
   0x3F75DEC6, 0x3F75FAB3, 0x3F76167A, 0x3F76321B, 0x3F764D97, 0x3F7668EC, 0x3F76841B, 0x3F769F24,
   0x3F76BA07, 0x3F76D4C4, 0x3F76EF5B, 0x3F7709CC, 0x3F772417, 0x3F773E3C, 0x3F77583A, 0x3F777213,
   0x3F778BC5, 0x3F77A551, 0x3F77BEB7, 0x3F77D7F7, 0x3F77F110, 0x3F780A04, 0x3F7822D1, 0x3F783B77,
   0x3F7853F8, 0x3F786C52, 0x3F788486, 0x3F789C93, 0x3F78B47B, 0x3F78CC3B, 0x3F78E3D6, 0x3F78FB4A,
   0x3F791298, 0x3F7929BF, 0x3F7940C0, 0x3F79579A, 0x3F796E4E, 0x3F7984DC, 0x3F799B43, 0x3F79B183,
   0x3F79C79D, 0x3F79DD91, 0x3F79F35E, 0x3F7A0904, 0x3F7A1E84, 0x3F7A33DD, 0x3F7A4910, 0x3F7A5E1C,
   0x3F7A7302, 0x3F7A87C1, 0x3F7A9C59, 0x3F7AB0CB, 0x3F7AC516, 0x3F7AD93A, 0x3F7AED37, 0x3F7B010E]

/-- Entries 3968 to 4031. -/
def cosRow62 : List Nat :=
  [0x3F7B14BE, 0x3F7B2848, 0x3F7B3BAB, 0x3F7B4EE7, 0x3F7B61FC, 0x3F7B74EA, 0x3F7B87B2, 0x3F7B9A53,
   0x3F7BACCD, 0x3F7BBF20, 0x3F7BD14D, 0x3F7BE353, 0x3F7BF531, 0x3F7C06E9, 0x3F7C187A, 0x3F7C29E5,
   0x3F7C3B28, 0x3F7C4C44, 0x3F7C5D3A, 0x3F7C6E08, 0x3F7C7EB0, 0x3F7C8F31, 0x3F7C9F8A, 0x3F7CAFBD,
   0x3F7CBFC9, 0x3F7CCFAE, 0x3F7CDF6C, 0x3F7CEF03, 0x3F7CFE73, 0x3F7D0DBC, 0x3F7D1CDD, 0x3F7D2BD8,
   0x3F7D3AAC, 0x3F7D4959, 0x3F7D57DE, 0x3F7D663D, 0x3F7D7474, 0x3F7D8285, 0x3F7D906E, 0x3F7D9E30,
   0x3F7DABCC, 0x3F7DB940, 0x3F7DC68C, 0x3F7DD3B2, 0x3F7DE0B1, 0x3F7DED88, 0x3F7DFA38, 0x3F7E06C2,
   0x3F7E1324, 0x3F7E1F5E, 0x3F7E2B72, 0x3F7E375E, 0x3F7E4323, 0x3F7E4EC1, 0x3F7E5A38, 0x3F7E6588,
   0x3F7E70B0, 0x3F7E7BB1, 0x3F7E868B, 0x3F7E913D, 0x3F7E9BC9, 0x3F7EA62D, 0x3F7EB069, 0x3F7EBA7F]

/-- Entries 4032 to 4095. -/
def cosRow63 : List Nat :=
  [0x3F7EC46D, 0x3F7ECE34, 0x3F7ED7D4, 0x3F7EE14C, 0x3F7EEA9D, 0x3F7EF3C7, 0x3F7EFCC9, 0x3F7F05A4,
   0x3F7F0E58, 0x3F7F16E4, 0x3F7F1F49, 0x3F7F2787, 0x3F7F2F9D, 0x3F7F378C, 0x3F7F3F54, 0x3F7F46F4,
   0x3F7F4E6D, 0x3F7F55BF, 0x3F7F5CE9, 0x3F7F63EC, 0x3F7F6AC7, 0x3F7F717B, 0x3F7F7808, 0x3F7F7E6D,
   0x3F7F84AB, 0x3F7F8AC2, 0x3F7F90B1, 0x3F7F9678, 0x3F7F9C18, 0x3F7FA191, 0x3F7FA6E3, 0x3F7FAC0D,
   0x3F7FB10F, 0x3F7FB5EA, 0x3F7FBA9E, 0x3F7FBF2A, 0x3F7FC38F, 0x3F7FC7CC, 0x3F7FCBE2, 0x3F7FCFD1,
   0x3F7FD397, 0x3F7FD737, 0x3F7FDAAF, 0x3F7FDE00, 0x3F7FE129, 0x3F7FE42B, 0x3F7FE705, 0x3F7FE9B8,
   0x3F7FEC43, 0x3F7FEEA7, 0x3F7FF0E3, 0x3F7FF2F8, 0x3F7FF4E6, 0x3F7FF6AC, 0x3F7FF84A, 0x3F7FF9C1,
   0x3F7FFB11, 0x3F7FFC39, 0x3F7FFD39, 0x3F7FFE13, 0x3F7FFEC4, 0x3F7FFF4E, 0x3F7FFFB1, 0x3F7FFFEC]

/-- The rows in index order. -/
def cosRows : List (List Nat) :=
  [cosRow0, cosRow1, cosRow2, cosRow3, cosRow4, cosRow5, cosRow6, cosRow7] ++
  [cosRow8, cosRow9, cosRow10, cosRow11, cosRow12, cosRow13, cosRow14, cosRow15] ++
  [cosRow16, cosRow17, cosRow18, cosRow19, cosRow20, cosRow21, cosRow22, cosRow23] ++
  [cosRow24, cosRow25, cosRow26, cosRow27, cosRow28, cosRow29, cosRow30, cosRow31] ++
  [cosRow32, cosRow33, cosRow34, cosRow35, cosRow36, cosRow37, cosRow38, cosRow39] ++
  [cosRow40, cosRow41, cosRow42, cosRow43, cosRow44, cosRow45, cosRow46, cosRow47] ++
  [cosRow48, cosRow49, cosRow50, cosRow51, cosRow52, cosRow53, cosRow54, cosRow55] ++
  [cosRow56, cosRow57, cosRow58, cosRow59, cosRow60, cosRow61, cosRow62, cosRow63]

/-- `MemRead(COS, i)` for `i < 4096` (R66, R79). -/
def cosRead (i : Nat) : F := BitVec.ofNat 32 ((cosRows.getD (i / 64) []).getD (i % 64) 0)

/-- The whole table (R65). -/
def cosTable : Memory F := (List.range (2 ^ Config.tb)).map cosRead

end Sys2Proof.Machine
end

