-- ==== Sys2Proof/Machine/Nco.lean ====
section
/-!
DEFINITION. The six NCO commands (42_nco.md).
-/

namespace Sys2Proof.Machine

/-! ## Advance and lookup (R184, R185, R187) -/

/-- `advance()` (R184, R185): the true phase, then the dithered phase from one step of the generator. -/
def ncoAdvance (pb : Nat) (u : Nco) : Nco :=
  let phase' := phaseAdd pb u.phase u.inc
  if u.ditherBits = 0#6 then { u with phase := phase', dphase := phase' }
  else
    let lfsr' := lfsrStep u.lfsr
    { u with phase := phase', dphase := phaseAdd pb phase' (ditherValue u.ditherBits lfsr'), lfsr := lfsr' }

/-- `lookup(φ)` (R187) at a `PB`-bit phase: the table entry at the integer part, with linear interpolation against the
adjacent entry unless `INT_PHASE = 1`. -/
def ncoLookup (c : Config) (intPhase : Bool) (φ : DWord) : F :=
  let idx := φ.toNat / 2 ^ c.fb % 2 ^ Config.tb
  let frac := φ.toNat % 2 ^ c.fb
  let t0 := cosRead idx
  if intPhase then t0
  else
    let t1 := cosRead ((idx + 1) % 2 ^ Config.tb)
    fadd t0 (fmul (phaseFrac c.fb frac) (fsub t1 t0))

/-- The in-phase component `I` (R188, R189). -/
def ncoI (c : Config) (u : Nco) : F := ncoLookup c u.intPhase u.dphase

/-- The quadrature component `Q`: the negated lookup a quarter period ahead (R189). -/
def ncoQ (c : Config) (u : Nco) : F :=
  fneg (ncoLookup c u.intPhase (phaseAdd c.pb u.dphase (BitVec.ofNat 64 (2 ^ (c.pb - 2)))))

/-! ## NCO.SETFREQ -/

/-- The operands of NCO.SETFREQ are valid (R181). -/
def setfreqValid (c : Config) (db : BitVec 6) (freq rate : CF) : Bool :=
  cfUsable freq && cfUsable rate && decide (0 < cfScaled rate) && decide (db.toNat ≤ c.pb - Config.tb)

/-- NCO.SETFREQ (R181): `PHASE` and `LFSR` are kept; on failure only `CFG_VALID` is written. -/
def ncoSetfreqAnswer (c : Config) (ip : Bool) (db : BitVec 6) (freq rate : CF) (u : Nco) : Answer Nco :=
  if setfreqValid c db freq rate then
    .done { u with inc := ncoIncrement c.pb freq rate, ditherBits := db, intPhase := ip, dphase := u.phase,
                   cfgValid := true } Flags.none []
  else .invalid { u with cfgValid := false }

/-- NCO.SETFREQ (R181, R182). -/
def execNcoSetfreq (k : BitVec 4) (ip : Bool) (db : BitVec 6) (freq sampleRate : CF) (s : State) :
    Host.Outcome State Fault Refusal :=
  onNco k s (ncoSetfreqAnswer s.cfg ip db freq sampleRate)

/-! ## The data commands -/

/-- NCO.NEXTPHASE (R186). -/
def execNcoNextphase (k : BitVec 4) (s : State) : Host.Outcome State Fault Refusal :=
  onNco k s fun u => ncoConfigured u (.done (ncoAdvance s.cfg.pb u) Flags.none [])

/-- NCO.GET (R188): writes nothing. -/
def execNcoGet (k : BitVec 4) (s : State) : Host.Outcome State Fault Refusal :=
  onNco k s fun u => ncoConfigured u (.done u Flags.none [ncoI s.cfg u])

/-- NCO.GETIQ (R189): writes nothing. -/
def execNcoGetiq (k : BitVec 4) (s : State) : Host.Outcome State Fault Refusal :=
  onNco k s fun u => ncoConfigured u (.done u Flags.none [ncoI s.cfg u, ncoQ s.cfg u])

/-- NCO.NEXT (R190): advances, then answers the sample of the new phase. -/
def execNcoNext (k : BitVec 4) (s : State) : Host.Outcome State Fault Refusal :=
  onNco k s fun u =>
    ncoConfigured u <|
      let u' := ncoAdvance s.cfg.pb u
      .done u' Flags.none [ncoI s.cfg u']

/-- NCO.NEXTIQ (R191): advances, then answers the pair of the new phase. -/
def execNcoNextiq (k : BitVec 4) (s : State) : Host.Outcome State Fault Refusal :=
  onNco k s fun u =>
    ncoConfigured u <|
      let u' := ncoAdvance s.cfg.pb u
      .done u' Flags.none [ncoI s.cfg u', ncoQ s.cfg u']

end Sys2Proof.Machine
end

