-- ==== Sys2Proof/Machine/Design.lean ====
section
/-!
DEFINITION. Design-time values (R120): each derived coefficient is an exact real rounded once to `F`. A real is held as an
enclosure by two integers in units of 2^-256; where both ends round to the same `F` value that value is the rounding of the
real, and where they do not the choice between the two is a free value (log 10).
-/

namespace Sys2Proof.Machine

/-! ## Enclosures -/

/-- A real between `lo * 2^-256` and `hi * 2^-256`. -/
structure Encl where
  lo : Int
  hi : Int
  deriving DecidableEq, Repr

/-- The number of units in 1. -/
def enclOne : Nat := 2 ^ 256

/-- The quotient of two integers rounded up, `d > 0`. -/
def ceilDiv (n : Int) (d : Nat) : Int := -(-n / d)

/-- The enclosure of an integer, exact. -/
def enclOfInt (n : Int) : Encl := ⟨n * enclOne, n * enclOne⟩

/-- The negated real. -/
def enclNeg (a : Encl) : Encl := ⟨-a.hi, -a.lo⟩

/-- The sum, exact on the ends. -/
def enclAdd (a b : Encl) : Encl := ⟨a.lo + b.lo, a.hi + b.hi⟩

/-- The difference, exact on the ends. -/
def enclSub (a b : Encl) : Encl := ⟨a.lo - b.hi, a.hi - b.lo⟩

/-- The product, rounded outward. -/
def enclMul (a b : Encl) : Encl :=
  let p := a.lo * b.lo
  let q := a.lo * b.hi
  let r := a.hi * b.lo
  let t := a.hi * b.hi
  ⟨min (min p q) (min r t) / enclOne, ceilDiv (max (max p q) (max r t)) enclOne⟩

/-- The quotient by a positive integer, rounded outward. -/
def enclDivNat (a : Encl) (n : Nat) : Encl := ⟨a.lo / n, ceilDiv a.hi n⟩

/-- The product with a natural number, exact. -/
def enclScale (a : Encl) (n : Nat) : Encl := ⟨a.lo * n, a.hi * n⟩

/-- The quotient by a positive real, rounded outward. -/
def enclDiv (a d : Encl) : Encl :=
  ⟨a.lo * enclOne / (if 0 ≤ a.lo then d.hi else d.lo), ceilDiv (a.hi * enclOne) (if 0 ≤ a.hi then d.lo else d.hi).toNat⟩

/-- π: the literal is `floor(π * 2^256)`. -/
def enclPi : Encl :=
  let p : Nat := 0x3243f6a8885a308d313198a2e03707344a4093822299f31d0082efa98ec4e6c89
  ⟨p, p + 1⟩

/-! ## Sine and cosine -/

/-- The alternating sum `t - t z/d(n) + ...` of falling non-negative terms that starts with term `n`, equal to `t`. The sum
of such a series lies between 0 and its first term, which closes it after `fuel` terms. -/
def alternating (d : Nat → Nat) (z : Encl) : (fuel n : Nat) → (t : Encl) → Encl
  | 0, _, t => ⟨0, t.hi⟩
  | fuel + 1, n, t => enclSub t (alternating d z fuel (n + 1) (enclDivNat (enclMul t z) (d n)))

/-- The terms taken of each series: the next one is below 2^-256 for an angle of at most π/4. -/
def seriesTerms : Nat := 28

/-- `cos θ` for `θ` in [0, π/4]. -/
def cosSmall (θ : Encl) : Encl :=
  alternating (fun n => (2 * n + 1) * (2 * n + 2)) (enclMul θ θ) seriesTerms 0 (enclOfInt 1)

/-- `sin θ / θ` for `θ` in [0, π/4], 1 at 0. -/
def sincSmall (θ : Encl) : Encl :=
  alternating (fun n => (2 * n + 2) * (2 * n + 3)) (enclMul θ θ) seriesTerms 0 (enclOfInt 1)

/-- `sin θ` for `θ` in [0, π/4]. -/
def sinSmall (θ : Encl) : Encl := enclMul θ (sincSmall θ)

/-- The angle `2π * a / b`, `b > 0`. -/
def turnAngle (a b : Nat) : Encl :=
  ⟨2 * enclPi.lo * a / b, ceilDiv (2 * enclPi.hi * a) b⟩

/-- `cos(2π q)` for the exact rational `q = a / b`, `b > 0`: `q` is brought into [0, 1/2], where the cosine of a turn and of
the rest of the turn agree, and then into an eighth of a turn; exact at the quarter turns (R120). -/
def cosTurn (a : Int) (b : Nat) : Encl :=
  let m : Nat := (a % b).toNat
  let h := min m (b - m)
  let oct := 8 * h / b
  let r := 8 * h % b
  let θ := turnAngle r (8 * b)
  let θ' := turnAngle (b - r) (8 * b)
  match oct with
  | 0 => if r = 0 then enclOfInt 1 else cosSmall θ
  | 1 => sinSmall θ'
  | 2 => if r = 0 then enclOfInt 0 else enclNeg (sinSmall θ)
  | 3 => enclNeg (cosSmall θ')
  | _ => enclOfInt (-1)

/-- `sin(2π q)` for `q = a / b`: the cosine a quarter turn earlier. -/
def sinTurn (a : Int) (b : Nat) : Encl := cosTurn (4 * a - b) (4 * b)

/-! ## Rounding an enclosed real once (R112, R120) -/

/-- The rounding of a real whose enclosure (of `g / d`) has ends that round to `a` and `b`: their common value, else a free
choice (log 10). -/
def decideRounding (g d : Encl) (a b : F) : F :=
  if a = b then a else if Config.freeRoundsUp g.lo g.hi d.lo d.hi then b else a

/-- `rnd_F` of an enclosed real. -/
def rndEncl (e : Encl) : F := decideRounding e (enclOfInt 1) (rndF e.lo enclOne) (rndF e.hi enclOne)

/-- `rnd_F(g / d)` for an enclosed `g` and an enclosed `d > 0`. -/
def rndQuotient (g d : Encl) : F :=
  let dlo := d.lo.toNat
  let dhi := d.hi.toNat
  decideRounding g d (rndF g.lo (if 0 ≤ g.lo then dhi else dlo)) (rndF g.hi (if 0 ≤ g.hi then dlo else dhi))

/-! ## The filter bank of RSMP.CREATE (R143 to R145) -/

/-- `sin(π y) / (π y)` for `y = a / b`, `b > 0`, 1 at 0; exactly 0 at the other integers. -/
def sincPi (a : Int) (b : Nat) : Encl :=
  let n := a.natAbs
  if n = 0 then enclOfInt 1
  else if n % b = 0 then enclOfInt 0
  else if 4 * n ≤ b then sincSmall (turnAngle n (2 * b))
  else enclDiv (sinTurn n (2 * b)) (turnAngle n (2 * b))

/-- A hundred times the Hamming window `w(k)` of a prototype of length `len` (R143). -/
def windowHundred (k len : Nat) : Encl :=
  if len = 1 then enclOfInt 100
  else enclSub (enclOfInt 54) (enclScale (cosTurn k (len - 1)) 46)

/-- `h(k)` of R143 times the factor `100 π / wc`, which the normalisation of R145 cancels (log 12): the window times
`sin(π y) / (π y)` with `y = wc m(k) / π = fc (2k - (L-1)) / (N Fs)`. `fc / fs` is the cut-off over the rate. -/
def prototypeTap (n len fc fs k : Nat) : Encl :=
  enclMul (windowHundred k len) (sincPi (fc * (2 * (k : Int) - (len - 1 : Nat))) (n * fs))

/-- The sum of a list of enclosed reals. -/
def enclSum : List Encl → Encl
  | [] => enclOfInt 0
  | e :: es => enclAdd e (enclSum es)

/-- The taps of one phase, `rnd_F(g / S)`; `none` when the phase is degenerate (R144, R145, log 11). -/
def normalizeRow (gs : List Encl) : Option (List F) :=
  let sum := enclSum gs
  let row : Option (List F) :=
    if 0 < sum.lo then some (gs.map fun g => rndQuotient g sum)
    else if sum.hi < 0 then some (gs.map fun g => rndQuotient (enclNeg g) (enclNeg sum))
    else none
  match row with
  | some taps => if taps.all fIsFinite then some taps else none
  | none => none

/-- `g(p, i) = h(i N + p)` for the taps of phase `p` (R144). -/
def prototypeRow (n t fc fs p : Nat) : List Encl :=
  (List.range t).map fun i => prototypeTap n (n * t) fc fs (i * n + p)

/-- Rows `p`, `p+1`, ..., `count` of them, row after row (R62); `none` when one is degenerate. -/
def designRows (n t fc fs : Nat) : (count p : Nat) → Option (List F)
  | 0, _ => some []
  | count + 1, p =>
    match normalizeRow (prototypeRow n t fc fs p), designRows n t fc fs count (p + 1) with
    | some row, some rest => some (row ++ rest)
    | _, _ => none

/-- `design(phaseSteps, tapsPerPhase, sampleRate, cutoffHz)` for valid operands: the bank in the order of R62, or `none`
for a degenerate one (R141, R143 to R145). -/
def designBank (n t : Nat) (rate cutoff : CF) : Option (List F) :=
  let fs := (cfScaled rate).toNat
  let fc := (cfScaled cutoff).toNat
  let g := Nat.gcd fc fs
  designRows n t (fc / g) (fs / g) n 0

/-- The operands of RSMP.CREATE are valid: none of the seven conditions of R142 holds. -/
def createValid (phaseSteps taps : Word) (rate cutoff : CF) : Bool :=
  decide (0 < phaseSteps.toInt)
    && decide (0 < taps.toInt)
    && cfUsable rate && cfUsable cutoff
    && decide (2 * cfScaled cutoff < cfScaled rate)
    && decide (0 < cfScaled rate)
    && decide (0 < cfScaled cutoff)
    && decide (phaseSteps.toNat ≤ Config.maxPhaseSteps)
    && decide (taps.toNat ≤ Config.maxNtaps)
    && decide (phaseSteps.toNat * taps.toNat ≤ Config.maxBank)

/-! ## The coefficients of PLL.CONFIGURE (R212 to R217) -/

/-- `rnd_F` of a rational in the units of `cfScaled`. -/
def rndCf (n : Int) : F := rndF n cfOne

/-- `OSC0.c = rnd_F(cos w0)`, `w0 = 2π val(FREQ0)` (R213). -/
def oscCos (freq0 : F) : F := rndEncl (cosTurn (fScaled freq0) (2 ^ 149))

/-- `OSC0.s = rnd_F(sin w0)` (R213). -/
def oscSin (freq0 : F) : F := rndEncl (sinTurn (fScaled freq0) (2 ^ 149))

/-- `OSC1.c = rnd_F(-2π sin w0)` (R213). -/
def oscCosDerivative (freq0 : F) : F :=
  rndEncl (enclNeg (enclMul (enclScale enclPi 2) (sinTurn (fScaled freq0) (2 ^ 149))))

/-- `OSC1.s = rnd_F(2π cos w0)` (R213). -/
def oscSinDerivative (freq0 : F) : F :=
  rndEncl (enclMul (enclScale enclPi 2) (cosTurn (fScaled freq0) (2 ^ 149)))

/-- `LF_B0 = rnd_F(PLL_KB0 b)` (R215), `b` in the units of `cfScaled`. -/
def loopB0 (b : Int) : F := rndF (Config.pllKb0.1 * b) (Config.pllKb0.2 * cfOne)

/-- `LF_B1 = rnd_F(-PLL_KB0 b (1 - PLL_KZ b))` (R215). -/
def loopB1 (b : Int) : F :=
  rndF (-(Config.pllKb0.1 * b * (Config.pllKz.2 * cfOne - Config.pllKz.1 * b)))
    (Config.pllKb0.2 * cfOne * (Config.pllKz.2 * cfOne))

/-- `AMP_K = rnd_F(PLL_KAMP b)` (R216). -/
def ampCoefficient (b : Int) : F := rndF (Config.pllKamp * b) cfOne

/-- `Tp = rha(1 / f)`, the samples of a pilot period (R217), for `f > 0`. -/
def pilotPeriod (f : Int) : Nat := (rha cfOne f.toNat).toNat

/-- `LOCK_DELAY = NP Tp` with `NP = ceil(PLL_KLOCK / (b Tp))` (R217), for `f, b > 0`. -/
def lockDelayOf (f b : Int) : Nat :=
  let tp := pilotPeriod f
  (ceilDiv (Config.pllKlock * cfOne) (b.toNat * tp)).toNat * tp

/-- The operands of PLL.CONFIGURE are valid: none of the six conditions of R212 holds. -/
def configureValid (freq bandwidth minsignal : CF) : Bool :=
  let f := cfScaled freq
  let b := cfScaled bandwidth
  cfUsable freq && cfUsable bandwidth && cfUsable minsignal
    && decide (0 < b)
    && decide (0 < f - b)
    && decide (2 * (f + b) < cfOne)
    && decide (0 ≤ cfScaled minsignal)
    && decide (lockDelayOf f b ≤ 2 ^ 32 - 1)

end Sys2Proof.Machine
end

