-- ==== Sys2Proof/Machine/Pll.lean ====
section
/-!
DEFINITION. The six PLL commands (43_pll.md).
-/

namespace Sys2Proof.Machine

/-! ## Projection and rotation (R221, R226) -/

/-- `project(ps, pc, ph)` (R221). -/
def pllProject (v : Variant) (ps pc : F) (ph : DWord) : OutVec :=
  match v with
  | .simple => .simple ps pc
  | .stereo => .stereo ps pc (fmul (fmul fTwo ps) pc) (fsub (fmul (fmul fTwo pc) pc) fOne)
  | .rds => .rds ps pc ph

/-- `rotate(PS, PC, FREQ')` (R226); the answer is `(PS', PC')`. -/
def pllRotate (u : Pll) (freq' : F) : F × F :=
  let dF := fsub freq' u.freq0
  let kc := fadd u.osc0c (fmul dF u.osc1c)
  let ks := fadd u.osc0s (fmul dF u.osc1s)
  let c1 := fsub (fmul kc u.pc) (fmul ks u.ps)
  let s1 := fadd (fmul ks u.pc) (fmul kc u.ps)
  let m := fadd (fmul c1 c1) (fmul s1 s1)
  let g := fsub fOneHalf (fmul fHalf m)
  (fmul s1 g, fmul c1 g)

/-! ## PLL.CONFIGURE -/

/-- A configured unit (R213 to R218): the derived registers, each the exact value rounded once (R120, for `MINSIGNAL`
log 13), and the running state started at phase zero, unlocked. -/
def pllConfigured0 (u : Pll) (v : Variant) (even : Bool) (freq bandwidth minsignal : CF) : Pll :=
  let f := cfScaled freq
  let b := cfScaled bandwidth
  let freq0 := rndCf f
  { cfgValid := true
    variant := v
    even := even
    freq0 := freq0
    minfreq := rndCf (f - b)
    maxfreq := rndCf (f + b)
    minsignal := rndCf (cfScaled minsignal)
    osc0c := oscCos freq0
    osc0s := oscSin freq0
    osc1c := oscCosDerivative freq0
    osc1s := oscSinDerivative freq0
    lfB0 := loopB0 b
    lfB1 := loopB1 b
    ampK := ampCoefficient b
    lockDelay := BitVec.ofNat 32 (lockDelayOf f b)
    phase := 0#64
    freq := freq0
    ps := fZero
    pc := fOne
    lfX1 := fZero
    pilot := fZero
    lockCnt := 0#32
    periodIdx := 0#32
    sampleCnt := 0#64
    blockPos := 0#32
    out := pllProject v fZero fOne 0#64
    evq := []
    evOvf := false
    freeIx := u.freeIx }

/-- PLL.CONFIGURE (R211). A failed configure leaves every register but `CFG_VALID` unspecified (R219). The reserved
projection code never comes from the decoder; on it the command is IllegalCommand (R90 (e), log 16). -/
def pllConfigureAnswer (pb : Nat) (k : BitVec 4) (even : Bool) (var : BitVec 2) (freq bandwidth minsignal : CF) (u : Pll) :
    Answer Pll :=
  match variantOfCode var with
  | none => .error .illegalCommand
  | some v =>
    if configureValid freq bandwidth minsignal then
      .done (pllConfigured0 u v even freq bandwidth minsignal) Flags.none []
    else .invalid (pllUnspecified pb k u)

/-- PLL.CONFIGURE (R211 to R219). -/
def execPllConfigure (k : BitVec 4) (even : Bool) (var : BitVec 2) (freq bandwidth minsignal : CF) (s : State) :
    Host.Outcome State Fault Refusal :=
  onPll k s (pllConfigureAnswer s.cfg.pb k even var freq bandwidth minsignal)

/-! ## PLL.PROCESS (R220) -/

/-- The new amplitude estimate `PILOT'` (R223). -/
def pllPilot (u : Pll) (x : F) : F := fadd u.pilot (fmul u.ampK (fsub (fmul u.ps x) u.pilot))

/-- The phase error `pe` (R223). -/
def pllPhaseError (u : Pll) (x : F) : F := fmul u.pc x

/-- The unclamped frequency `fu` (R224). -/
def pllUnclamped (u : Pll) (pe : F) : F := fadd (fadd u.freq (fmul u.lfB0 pe)) (fmul u.lfB1 u.lfX1)

/-- The clamp to `[MINFREQ, MAXFREQ]` (R224). -/
def pllClamp (u : Pll) (fu : F) : F := if flt fu u.minfreq then u.minfreq else if fgt fu u.maxfreq then u.maxfreq else fu

/-- The lock counter after a sample with amplitude estimate `pilot'` (R227). -/
def pllLockCount (u : Pll) (pilot' : F) : Word :=
  if fge (fmul fTwo pilot') u.minsignal then
    BitVec.ofNat 32 (min (u.lockCnt.toNat + 1) u.lockDelay.toNat)
  else 0#32

/-- The event queue and overflow bit after a wrap of the phase (R229, R64). -/
def pllPushEvent (u : Pll) : Memory EventRecord × Bool :=
  if u.even then
    if u.evq.length < Config.evqDepth then (u.evq ++ [⟨u.periodIdx, u.sampleCnt, u.blockPos⟩], u.evOvf)
    else (u.evq, true)
  else (u.evq, u.evOvf)

/-- The phase sum on unbounded integers, before it is reduced (R228). -/
def pllPhaseSum (pb : Nat) (u : Pll) (freq' : F) : Int := u.phase.toNat + cyc2inc pb freq'

/-- The commit of PLL.PROCESS (R220 steps 5 to 9), once the new `PILOT`, `LF_X1`, `FREQ`, `PS`, `PC` are known. -/
def pllCommit (pb : Nat) (u : Pll) (pilot' pe freq' ps' pc' : F) : Pll :=
  let sum := pllPhaseSum pb u freq'
  let wrap := decide (((2 ^ pb : Nat) : Int) ≤ sum)
  let q := if wrap then pllPushEvent u else (u.evq, u.evOvf)
  { u with
    pilot := pilot'
    lfX1 := pe
    freq := freq'
    phase := phaseOfInt pb sum
    ps := ps'
    pc := pc'
    lockCnt := pllLockCount u pilot'
    periodIdx := if wrap then u.periodIdx + 1#32 else u.periodIdx
    sampleCnt := u.sampleCnt + 1#64
    blockPos := u.blockPos + 1#32
    evq := q.1
    evOvf := q.2
    out := pllProject u.variant u.ps u.pc u.phase }

/-- PLL.PROCESS on a configured unit (R220 steps 1 to 10). -/
def pllProcessAnswer (c : Config) (x : F) (u : Pll) : Answer Pll :=
  if !fIsFinite x then .error .badOperand
  else
    let pilot' := pllPilot u x
    let pe := pllPhaseError u x
    let fu := pllUnclamped u pe
    if !(fIsFinite pilot' && fIsFinite pe && fIsFinite fu) then .error .numericOverflow
    else
      let freq' := pllClamp u fu
      let r := pllRotate u freq'
      if !(fIsFinite r.1 && fIsFinite r.2) then .error .numericOverflow
      else
        let u' := pllCommit c.pb u pilot' pe freq' r.1 r.2
        .done u' (Flags.pll u') (u'.out.words c.phaseBits)

/-- PLL.PROCESS (R220 to R230). -/
def execPllProcess (k : BitVec 4) (sample : F) (s : State) : Host.Outcome State Fault Refusal :=
  onPll k s fun u => pllConfigured u (pllProcessAnswer s.cfg sample u)

/-! ## Reading the loop (R232 to R235) -/

/-- The pilot level, twice the amplitude estimate (R233). -/
def pllLevel (u : Pll) : F := fmul fTwo u.pilot

/-- PLL.LOCKED (R232): writes nothing; the answer is the flag. -/
def execPllLocked (k : BitVec 4) (s : State) : Host.Outcome State Fault Refusal :=
  onPll k s fun u => pllConfigured u (.done u (Flags.pll u) [])

/-- PLL.PILOTLEVEL (R233): writes nothing. -/
def execPllPilotlevel (k : BitVec 4) (s : State) : Host.Outcome State Fault Refusal :=
  onPll k s fun u => pllConfigured u (.done u (Flags.pll u) [pllLevel u])

/-- PLL.GETOUT (R234): the register `OUT` as it stands, no fresh projection. -/
def execPllGetout (k : BitVec 4) (s : State) : Host.Outcome State Fault Refusal :=
  onPll k s fun u => pllConfigured u (.done u (Flags.pll u) (u.out.words s.cfg.phaseBits))

/-- The unit after a drain (R235). -/
def pllDrained (u : Pll) : Pll := { u with evq := [], evOvf := false, blockPos := 0#32 }

/-- The results of a drain: the count, then the records, oldest first (R235). -/
def pllDrainWords (u : Pll) : List Word := BitVec.ofNat 32 u.evq.length :: u.evq.flatMap EventRecord.words

/-- PLL.EVDRAIN (R235): `EVOVF` is reported as it was before the command clears it (R54). -/
def execPllEvdrain (k : BitVec 4) (s : State) : Host.Outcome State Fault Refusal :=
  onPll k s fun u =>
    pllConfigured u (.done (pllDrained u) (Flags.pll { pllDrained u with evOvf := u.evOvf }) (pllDrainWords u))

end Sys2Proof.Machine
end

