-- ==== Sys2Proof/Machine/Rsmp.lean ====
section
/-!
DEFINITION. The five RSMP commands (41_resampler.md).
-/

namespace Sys2Proof.Machine

/-! ## Building blocks (R148 to R153) -/

/-- `consume(x)` (R148): the write position moves back by one modulo `NTAPS` and `x` is written there, bit for bit. -/
def rsmpConsume (u : Rsmp) (x : Cplx) : Option Rsmp :=
  let wpos' := if u.wpos = 0#16 then u.ntaps - 1#16 else u.wpos - 1#16
  match memWrite u.ring wpos'.toNat x with
  | some ring' => some { u with ring := ring', wpos := wpos' }
  | none => none

/-- `phase_index(d)` for a `d` that is no NaN (R150); `none` raises PhaseRange (R151). -/
def phaseIndex (u : Rsmp) (d : F) : Option Nat :=
  let n := u.phaseSteps.toNat
  let prod := fmul d (itof n)
  if prod = fInf false then none
  else
    let p : Nat := if prod = fInf true then 0 else (floorF prod).toNat
    if n ≤ p then none else some p

/-- The accumulation chain of `convolve(p)` from tap `i` on, with `left` taps to go (R152). -/
def convolveFrom (u : Rsmp) (p : Nat) : (left i : Nat) → (acc : Cplx) → Option Cplx
  | 0, _, acc => some acc
  | left + 1, i, acc =>
    match memRead u.taps (p * u.ntaps.toNat + i), memRead u.ring ((u.wpos.toNat + i) % u.ntaps.toNat) with
    | some t, some x => convolveFrom u p left (i + 1) ⟨fadd acc.re (fmul t x.re), fadd acc.im (fmul t x.im)⟩
    | _, _ => none

/-- `convolve(p)`: one sequential chain for each component, tap 0 with the newest sample (R152, R153). -/
def convolve (u : Rsmp) (p : Nat) : Option Cplx := convolveFrom u p u.ntaps.toNat 0 Cplx.zero

/-- The end of a data command that computes an output: the phase, the convolution over the unit `u`, the response with
`VALID = 1` (R154 to R156). -/
def rsmpOutput (u : Rsmp) (d1 : F) (p : Nat) (consumed : Bool) : Answer Rsmp :=
  match convolve u p with
  | some y => .done u (Flags.rsmp true consumed) [d1, y.re, y.im]
  | none => .stop .elementOutOfRange

/-- The checks that every data command makes first (R149, R276, R277). -/
def rsmpData (u : Rsmp) (distance : F) (f : Answer Rsmp) : Answer Rsmp :=
  rsmpConfigured u (if fIsNaN distance then .error .badOperand else f)

/-! ## RSMP.CREATE -/

/-- The unit after a successful create: the bank, a flushed ring, `WPOS = 0`, `CFG_VALID = 1` (R141 step 3, R146). -/
def rsmpCreated (u : Rsmp) (n t : Nat) (bank : List F) : Rsmp :=
  { u with
    cfgValid := true
    phaseSteps := BitVec.ofNat 16 n
    ntaps := BitVec.ofNat 16 t
    wpos := 0#16
    taps := bank
    ring := List.replicate t Cplx.zero }

/-- RSMP.CREATE (R141). A failed create leaves every register but `CFG_VALID` unspecified (R147). -/
def rsmpCreateAnswer (k : BitVec 4) (phaseSteps taps : Word) (rate cutoff : CF) (u : Rsmp) : Answer Rsmp :=
  if createValid phaseSteps taps rate cutoff then
    match designBank phaseSteps.toNat taps.toNat rate cutoff with
    | some bank => .done (rsmpCreated u phaseSteps.toNat taps.toNat bank) Flags.none []
    | none => .invalid (rsmpUnspecified k u)
  else .invalid (rsmpUnspecified k u)

/-- RSMP.CREATE (R141 to R147). -/
def execRsmpCreate (k : BitVec 4) (phaseSteps tapsPerPhase : Word) (sampleRate cutoffHz : CF) (s : State) :
    Host.Outcome State Fault Refusal :=
  onRsmp k s (rsmpCreateAnswer k phaseSteps tapsPerPhase sampleRate cutoffHz)

/-! ## The data commands -/

/-- RSMP.DECIMATE (R154): consumes, takes 1.0 off the distance, and answers an output when the rest is below 1. -/
def rsmpDecimateAnswer (distance : F) (x : Cplx) (u : Rsmp) : Answer Rsmp :=
  rsmpData u distance <|
    let d1 := fsub distance fOne
    match rsmpConsume u x with
    | none => .stop .elementOutOfRange
    | some u' =>
      if fge d1 fOne then .done u' (Flags.rsmp false true) [d1]
      else
        match phaseIndex u d1 with
        | none => .error .phaseRange
        | some p => rsmpOutput u' d1 p true

/-- RSMP.DECIMATE (R154). -/
def execRsmpDecimate (k : BitVec 4) (distance re im : F) (s : State) : Host.Outcome State Fault Refusal :=
  onRsmp k s (rsmpDecimateAnswer distance ⟨re, im⟩)

/-- RSMP.INTERPOLATE (R155): consumes when the distance is at least 1; the phase is computed first, so that PhaseRange
finds nothing written (R151). -/
def rsmpInterpolateAnswer (distance : F) (x : Cplx) (u : Rsmp) : Answer Rsmp :=
  rsmpData u distance <|
    let c := fge distance fOne
    let d1 := if c then fsub distance fOne else distance
    match phaseIndex u d1 with
    | none => .error .phaseRange
    | some p =>
      match (if c then rsmpConsume u x else some u) with
      | none => .stop .elementOutOfRange
      | some u' => rsmpOutput u' d1 p c

/-- RSMP.INTERPOLATE (R155). -/
def execRsmpInterpolate (k : BitVec 4) (distance re im : F) (s : State) : Host.Outcome State Fault Refusal :=
  onRsmp k s (rsmpInterpolateAnswer distance ⟨re, im⟩)

/-- The end of RSMP.RESAMPLE once the distance is below 1 (R156). -/
def rsmpResampleOutput (u : Rsmp) (d1 : F) (consumed : Bool) : Answer Rsmp :=
  match phaseIndex u d1 with
  | none => .error .phaseRange
  | some p => rsmpOutput u d1 p consumed

/-- RSMP.RESAMPLE (R156): the loop of the source, which consumes at most once in a command. -/
def rsmpResampleAnswer (consumed : Bool) (distance : F) (x : Cplx) (u : Rsmp) : Answer Rsmp :=
  rsmpData u distance <|
    if fge distance fOne then
      if consumed then .done u (Flags.rsmp false true) [distance]
      else
        match rsmpConsume u x with
        | none => .stop .elementOutOfRange
        | some u' =>
          let d1 := fsub distance fOne
          if fge d1 fOne then .done u' (Flags.rsmp false true) [d1] else rsmpResampleOutput u' d1 true
    else rsmpResampleOutput u distance consumed

/-- RSMP.RESAMPLE (R156). -/
def execRsmpResample (k : BitVec 4) (consumed : Bool) (distance re im : F) (s : State) :
    Host.Outcome State Fault Refusal :=
  onRsmp k s (rsmpResampleAnswer consumed distance ⟨re, im⟩)

/-! ## RSMP.RDTAP -/

/-- RSMP.RDTAP (R158): one element of the bank, or BadIndex (R281). -/
def rsmpRdtapAnswer (p : BitVec 16) (i : Word) (u : Rsmp) : Answer Rsmp :=
  rsmpConfigured u <|
    if u.phaseSteps.toNat ≤ p.toNat ∨ u.ntaps.toNat ≤ i.toNat then .error .badIndex
    else
      match memRead u.taps (p.toNat * u.ntaps.toNat + i.toNat) with
      | some t => .done u Flags.none [t]
      | none => .stop .elementOutOfRange

/-- RSMP.RDTAP (R158). -/
def execRsmpRdtap (k : BitVec 4) (p : BitVec 16) (i : Word) (s : State) : Host.Outcome State Fault Refusal :=
  onRsmp k s (rsmpRdtapAnswer p i)

end Sys2Proof.Machine
end

