-- ==== Sys2Proof/Machine/Dispatch.lean ====
section
/-!
DEFINITION. Dispatch: one arm for each command, each a direct call of its meaning.
-/

namespace Sys2Proof.Machine

def exec (i : Instr) (s : State) : Host.Outcome State Fault Refusal :=
  match i with
  | .coreNop => Sys2Proof.Machine.execCoreNop s
  | .coreReset => Sys2Proof.Machine.execCoreReset s
  | .coreId => Sys2Proof.Machine.execCoreId s
  | .coreErr => Sys2Proof.Machine.execCoreErr s
  | .rsmpCreate k n t rate cutoff => Sys2Proof.Machine.execRsmpCreate k n t rate cutoff s
  | .rsmpDecimate k d re im => Sys2Proof.Machine.execRsmpDecimate k d re im s
  | .rsmpInterpolate k d re im => Sys2Proof.Machine.execRsmpInterpolate k d re im s
  | .rsmpResample k cin d re im => Sys2Proof.Machine.execRsmpResample k cin d re im s
  | .rsmpRdtap k p j => Sys2Proof.Machine.execRsmpRdtap k p j s
  | .ncoSetfreq k ip db freq rate => Sys2Proof.Machine.execNcoSetfreq k ip db freq rate s
  | .ncoNextphase k => Sys2Proof.Machine.execNcoNextphase k s
  | .ncoGet k => Sys2Proof.Machine.execNcoGet k s
  | .ncoGetiq k => Sys2Proof.Machine.execNcoGetiq k s
  | .ncoNext k => Sys2Proof.Machine.execNcoNext k s
  | .ncoNextiq k => Sys2Proof.Machine.execNcoNextiq k s
  | .pllConfigure k even var freq bw minsig => Sys2Proof.Machine.execPllConfigure k even var freq bw minsig s
  | .pllProcess k x => Sys2Proof.Machine.execPllProcess k x s
  | .pllLocked k => Sys2Proof.Machine.execPllLocked k s
  | .pllPilotlevel k => Sys2Proof.Machine.execPllPilotlevel k s
  | .pllGetout k => Sys2Proof.Machine.execPllGetout k s
  | .pllEvdrain k => Sys2Proof.Machine.execPllEvdrain k s

end Sys2Proof.Machine
end

