-- ==== Sys2Proof/Machine/Port.lean ====
section
/-!
DEFINITION. The command port: what the core does with the event it takes next (R70, R80, R87, R274, R300).
-/

namespace Sys2Proof.Machine

/-- A command: the decoded one is executed; a packet that is none of the 21 raises IllegalCommand and its payload is
discarded (R274). -/
def runCommand (p : Packet) (s : State) : Host.Outcome State Fault Refusal :=
  match decode p with
  | .command i => exec i s
  | .illegal _ => .next (s.raise .illegalCommand)

/-- The hardware reset input: the reset state of every unit, and no response (R300, R301, log 5). -/
def hardwareReset (s : State) : State := { s.resetUnits with response := [] }

/-- The core takes the oldest event on the port and runs it to completion; with none it is idle and keeps all state
(R70, R288, log 3). -/
def takeEvent (s : State) : Host.Outcome State Fault Refusal :=
  match s.input with
  | [] => .next s
  | .command p :: rest => runCommand p { s with input := rest }
  | .hardwareReset :: rest => .next (hardwareReset { s with input := rest })

/-- The host puts a command on the port, where it is the next one taken (log 2). -/
def State.sendFirst (s : State) (p : Packet) : State := { s with input := .command p :: s.input }

end Sys2Proof.Machine
end

