-- ==== Sys2Proof/Machine/Step.lean ====
section
/-!
DEFINITION. The step, and the place an instruction is put for it.
-/

namespace Sys2Proof.Machine

/-- One step: one event of the port, a command executed to completion (R70), or nothing when the port is idle. -/
def step (s : State) : Host.Outcome State Fault Refusal := takeEvent s

/-- The state in which the instruction whose bits are `w` is the next command on the port (log 2). -/
def State.withFetchWord (s : State) (nbits w : Nat) : State := s.sendFirst (packetOfBits nbits w)

end Sys2Proof.Machine
end

