-- ==== Sys2Proof/Safety.lean ====
section
/-!
DEFINITION. What counts as a safe run: the invariants that the spec states for the registers of a unit (R23 to R29, R37, R39,
R43, R44, R48, R51), and a step that neither faults nor refuses.
-/

namespace Sys2Proof.Machine

/-- The invariant of an RSMP unit: while it is configured its sizes are legal, its two memory spaces have exactly their
elements, the write position lies in the ring (R23 to R28) and every tap is finite (R145). -/
structure RsmpOk (u : Rsmp) : Prop where
  steps_pos : u.cfgValid = true → 1 ≤ u.phaseSteps.toNat
  steps_le : u.cfgValid = true → u.phaseSteps.toNat ≤ Config.maxPhaseSteps
  ntaps_pos : u.cfgValid = true → 1 ≤ u.ntaps.toNat
  ntaps_le : u.cfgValid = true → u.ntaps.toNat ≤ Config.maxNtaps
  bank_le : u.cfgValid = true → u.phaseSteps.toNat * u.ntaps.toNat ≤ Config.maxBank
  taps_wf : u.cfgValid = true → Memory.wf u.taps (u.phaseSteps.toNat * u.ntaps.toNat) = true
  ring_wf : u.cfgValid = true → Memory.wf u.ring u.ntaps.toNat = true
  wpos_lt : u.cfgValid = true → u.wpos.toNat < u.ntaps.toNat
  taps_finite : u.cfgValid = true → ∀ t ∈ u.taps, fIsFinite t = true

/-- The invariant of an NCO unit (R31 to R33, R36, R37). -/
structure NcoOk (pb : Nat) (u : Nco) : Prop where
  phase_lt : u.phase.toNat < 2 ^ pb
  inc_lt : u.inc.toNat < 2 ^ pb
  dphase_lt : u.dphase.toNat < 2 ^ pb
  lfsr_ne : u.lfsr ≠ 0#32
  dither_le : u.ditherBits.toNat ≤ pb - Config.tb
  dither_small : u.cfgValid = true → (u.dphase.toNat + (2 ^ pb - u.phase.toNat)) % 2 ^ pb < 2 ^ u.ditherBits.toNat

/-- The shape of `OUT` is that of `VARIANT` (R50). -/
def OutVec.fits : OutVec → Variant → Bool
  | .simple _ _, .simple => true
  | .stereo _ _ _ _, .stereo => true
  | .rds _ _ _, .rds => true
  | _, _ => false

/-- The invariant of a PLL unit: the phase fits its width, the queue its capacity (R43, R51); while it is configured the
frequency limits are finite and ordered within (0, 1/2] and the signal floor is at least 0 (R39, log 13), the
frequency estimate lies in its clamp range (R44), every running `F` register is finite (R225), the lock counter is bounded by
the threshold (R48) and the output vector has the shape of the variant (R50). -/
structure PllOk (pb : Nat) (u : Pll) : Prop where
  phase_lt : u.phase.toNat < 2 ^ pb
  evq_le : u.evq.length ≤ Config.evqDepth
  min_finite : u.cfgValid = true → fIsFinite u.minfreq = true
  max_finite : u.cfgValid = true → fIsFinite u.maxfreq = true
  freq0_finite : u.cfgValid = true → fIsFinite u.freq0 = true
  min_pos : u.cfgValid = true → fgt u.minfreq fZero = true
  freq0_ge : u.cfgValid = true → fge u.freq0 u.minfreq = true
  freq0_le : u.cfgValid = true → fge u.maxfreq u.freq0 = true
  max_le_half : u.cfgValid = true → fge fHalf u.maxfreq = true
  minsignal_nonneg : u.cfgValid = true → fge u.minsignal fZero = true
  range_nonempty : u.cfgValid = true → fge u.maxfreq u.minfreq = true
  freq_ge : u.cfgValid = true → fge u.freq u.minfreq = true
  freq_le : u.cfgValid = true → fge u.maxfreq u.freq = true
  freq_finite : u.cfgValid = true → fIsFinite u.freq = true
  ps_finite : u.cfgValid = true → fIsFinite u.ps = true
  pc_finite : u.cfgValid = true → fIsFinite u.pc = true
  x1_finite : u.cfgValid = true → fIsFinite u.lfX1 = true
  pilot_finite : u.cfgValid = true → fIsFinite u.pilot = true
  delay_ge : u.cfgValid = true → 2 ≤ u.lockDelay.toNat
  cnt_le : u.cfgValid = true → u.lockCnt.toNat ≤ u.lockDelay.toNat
  out_fits : u.cfgValid = true → u.out.fits u.variant = true

/-- The bits of `ERRFLAGS` that read 0: bit 0 and bits 31 to 9 (R55). -/
def errReserved : Word := 0xFFFFFE01#32

/-- Every RSMP unit meets its invariant. -/
def State.rsmpsOk (s : State) : Prop := ∀ u ∈ s.rsmp, RsmpOk u

/-- Every NCO unit meets its invariant. -/
def State.ncosOk (s : State) : Prop := ∀ u ∈ s.nco, NcoOk s.cfg.pb u

/-- Every PLL unit meets its invariant. -/
def State.pllsOk (s : State) : Prop := ∀ u ∈ s.pll, PllOk s.cfg.pb u

/-- The number of units is that of the parameters (R7, R20). -/
structure State.CountsOk (s : State) : Prop where
  params : s.cfg.valid = true
  rsmp : s.rsmp.length = s.cfg.nRsmp
  nco : s.nco.length = s.cfg.nNco
  pll : s.pll.length = s.cfg.nPll

/-- The canonical form of every memory space in use (R27, R28, R51). -/
def State.memoryWf (s : State) : Bool :=
  (s.rsmp.all fun u =>
    !u.cfgValid || (Memory.wf u.taps (u.phaseSteps.toNat * u.ntaps.toNat) && Memory.wf u.ring u.ntaps.toNat))
  && s.pll.all fun u => decide (u.evq.length ≤ Config.evqDepth)

/-- The step from a state is safe: it answers a next state, no fault and no refusal. -/
def State.stepsSafely (s : State) : Prop := ∃ t, step s = .next t

end Sys2Proof.Machine
end

