-- ==== Sys2Proof/Certificates/Slice0/Obligations.lean ====
section
/-!
DEFINITION. The statements about the model, `def Obligations.<Name> : Prop`, and the formulas of the spec they are written with.
Where a statement can say a value in the spec's own terms (rationals, a fold over the taps, sums of naturals) it does, rather
than by the function the machine computes it with. The port fields `input` and `response` of a state are the model's way to hold
the command port (log 2).
-/

namespace Sys2Proof.Claims

open Sys2Proof.Machine

/-! ## Values (R11, R111, R112, R117, R118) -/

/-- `val(a)` of a finite `F` datum as a rational (R111). -/
def valF (a : F) : ℚ :=
  let e : Nat := a.toNat / 2 ^ 23 % 2 ^ 8
  let f : Nat := a.toNat % 2 ^ 23
  let m : ℚ := if e = 0 then (f : ℚ) / 2 ^ 149 else ((2 ^ 23 + f : Nat) : ℚ) * (2 : ℚ) ^ e / 2 ^ 150
  if a.toNat / 2 ^ 31 = 1 then -m else m

/-- `isfinite` of an `F` datum: its exponent field is not 255 (R111). -/
def finF (a : F) : Prop := a.toNat / 2 ^ 23 % 2 ^ 8 ≠ 255

/-- A `CF` operand is finite: its exponent field is not 2047 (R117). -/
def fin64 (c : CF) : Prop := c.toNat / 2 ^ 52 % 2 ^ 11 ≠ 2047

/-- `val(c)` of a usable `CF` operand as a rational (R117). -/
def val64 (c : CF) : ℚ :=
  let e : Nat := c.toNat / 2 ^ 52 % 2 ^ 11
  let f : Nat := c.toNat % 2 ^ 52
  let m : ℚ := if e = 0 then (f : ℚ) / 2 ^ 1074 else ((2 ^ 52 + f : Nat) : ℚ) * (2 : ℚ) ^ e / 2 ^ 1075
  if c.toNat / 2 ^ 63 = 1 then -m else m

/-- `a` is `rnd_F(r)` (R112). -/
def RoundsTo (r : ℚ) (a : F) : Prop :=
  if r = 0 then a = 0x00000000#32
  else if 2 ^ 128 - 2 ^ 103 ≤ |r| then a = if r < 0 then 0xFF800000#32 else 0x7F800000#32
  else
    finF a ∧ (a.toNat / 2 ^ 31 = 1 ↔ r < 0) ∧ (∀ b, finF b → |r - valF a| ≤ |r - valF b|) ∧
      (∀ b, finF b → valF b ≠ valF a → |r - valF b| = |r - valF a| → a.toNat % 2 = 0)

/-- The pattern is an infinity (R111). -/
def infF (a : F) : Prop := a = 0x7F800000#32 ∨ a = 0xFF800000#32

/-- The pattern is a NaN (R111). -/
def nanF (a : F) : Prop := a.toNat / 2 ^ 23 % 2 ^ 8 = 255 ∧ a.toNat % 2 ^ 23 ≠ 0

/-- The infinity whose sign is the exclusive-or of the signs of two patterns. -/
def infOfSigns (a b : F) : F := 0x7F800000#32 ||| ((a ^^^ b) &&& 0x80000000#32)

/-- The value of a pattern that is no NaN, the infinities at the ends (R115). -/
noncomputable def valE (a : F) : EReal :=
  if a = 0x7F800000#32 then ⊤ else if a = 0xFF800000#32 then ⊥ else (((valF a : ℚ) : ℝ) : EReal)

/-- R113 on finite operands, and `fneg`. -/
def finiteArithmetic : Prop :=
  (∀ a b : F, finF a → finF b →
    (valF a + valF b ≠ 0 → RoundsTo (valF a + valF b) (fadd a b)) ∧
    (valF a - valF b ≠ 0 → RoundsTo (valF a - valF b) (fsub a b)) ∧
    (valF a * valF b ≠ 0 → RoundsTo (valF a * valF b) (fmul a b)) ∧
    (valF a + valF b = 0 → fadd a b = if a = 0x80000000#32 ∧ b = 0x80000000#32 then 0x80000000#32 else 0#32) ∧
    (valF a - valF b = 0 → fsub a b = if a = 0x80000000#32 ∧ b = 0#32 then 0x80000000#32 else 0#32) ∧
    (valF a * valF b = 0 → fmul a b = (a ^^^ b) &&& 0x80000000#32)) ∧
  (∀ (a : F) (j : Nat), j < 32 → (fneg a).getLsbD j = (if j = 31 then !a.getLsbD j else a.getLsbD j))

/-- R114: operations with a NaN, with one infinity, and with two. -/
def specialArithmetic : Prop :=
  (∀ a b : F, nanF a ∨ nanF b → fadd a b = 0x7FC00000#32 ∧ fsub a b = 0x7FC00000#32 ∧ fmul a b = 0x7FC00000#32) ∧
  (∀ a b : F, infF a → finF b →
    fadd a b = a ∧ fadd b a = a ∧ fsub a b = a ∧ fsub b a = a ^^^ 0x80000000#32 ∧
    (fmul a b = if valF b = 0 then 0x7FC00000#32 else infOfSigns a b) ∧
    (fmul b a = if valF b = 0 then 0x7FC00000#32 else infOfSigns a b)) ∧
  (∀ a b : F, infF a → infF b →
    (fadd a b = if a = b then a else 0x7FC00000#32) ∧ (fsub a b = if a = b then 0x7FC00000#32 else a) ∧
    fmul a b = infOfSigns a b)

/-- R115: the tests by the encoding and the comparisons by the value. -/
def comparisonsByValue : Prop :=
  (∀ a : F, (fIsNaN a = true ↔ nanF a) ∧ (fIsFinite a = true ↔ finF a)) ∧
  (∀ a b : F,
    (fge a b = true ↔ ¬ nanF a ∧ ¬ nanF b ∧ valE b ≤ valE a) ∧
    (fgt a b = true ↔ ¬ nanF a ∧ ¬ nanF b ∧ valE b < valE a) ∧
    (flt a b = true ↔ ¬ nanF a ∧ ¬ nanF b ∧ valE a < valE b) ∧
    (feq a b = true ↔ ¬ nanF a ∧ ¬ nanF b ∧ valE a = valE b))

/-- `rha(q)` of a rational (R118). -/
def rhaQ (q : ℚ) : ℤ := if 0 ≤ q then ⌊q + 1 / 2⌋ else -⌊-q + 1 / 2⌋

/-! ## Rows of the opcode map (R88, R89) -/

/-- The header match of a row, as the table of R88 prints it. -/
def rowMatch : Opcode → Word
  | .coreNop => 0x00000000#32
  | .coreReset => 0x00010000#32
  | .coreId => 0x00020000#32
  | .coreErr => 0x00030000#32
  | .rsmpCreate => 0x10010000#32
  | .rsmpDecimate => 0x10020000#32
  | .rsmpInterpolate => 0x10030000#32
  | .rsmpResample => 0x10040000#32
  | .rsmpRdtap => 0x10050000#32
  | .ncoSetfreq => 0x20010000#32
  | .ncoNextphase => 0x20020000#32
  | .ncoGet => 0x20030000#32
  | .ncoGetiq => 0x20040000#32
  | .ncoNext => 0x20050000#32
  | .ncoNextiq => 0x20060000#32
  | .pllConfigure => 0x30010000#32
  | .pllProcess => 0x30020000#32
  | .pllLocked => 0x30030000#32
  | .pllPilotlevel => 0x30040000#32
  | .pllGetout => 0x30050000#32
  | .pllEvdrain => 0x30060000#32

/-- The header mask of a row, as the table of R88 prints it. -/
def rowMask : Opcode → Word
  | .coreNop | .coreReset | .coreId | .coreErr => 0xFFFFFFFF#32
  | .rsmpResample => 0xF0FFFFFE#32
  | .rsmpRdtap => 0xF0FF0000#32
  | .ncoSetfreq => 0xF0FFFEC0#32
  | .pllConfigure => 0xF0FFFEFC#32
  | _ => 0xF0FFFFFF#32

/-! ## Addressed units (R20, R83) -/

/-- The three kinds of replicated unit. -/
inductive Kind where
  | rsmp | nco | pll
  deriving DecidableEq, Repr

/-- The unit that a command addresses; none for CORE. -/
def target : Instr → Option (Kind × Nat)
  | .coreNop | .coreReset | .coreId | .coreErr => none
  | .rsmpCreate k _ _ _ _ | .rsmpDecimate k _ _ _ | .rsmpInterpolate k _ _ _ | .rsmpResample k _ _ _ _
  | .rsmpRdtap k _ _ => some (.rsmp, k.toNat)
  | .ncoSetfreq k _ _ _ _ | .ncoNextphase k | .ncoGet k | .ncoGetiq k | .ncoNext k | .ncoNextiq k =>
      some (.nco, k.toNat)
  | .pllConfigure k _ _ _ _ _ | .pllProcess k _ | .pllLocked k | .pllPilotlevel k | .pllGetout k | .pllEvdrain k =>
      some (.pll, k.toNat)

/-- The three configuration commands. -/
def isConfiguration : Instr → Prop
  | .rsmpCreate _ _ _ _ _ | .ncoSetfreq _ _ _ _ _ | .pllConfigure _ _ _ _ _ _ => True
  | _ => False

/-- The number of units of a kind (R7). -/
def unitCount (c : Config) : Kind → Nat
  | .rsmp => c.nRsmp
  | .nco => c.nNco
  | .pll => c.nPll

/-- Two states hold the same at a unit. -/
def sameAt (x : Kind × Nat) (s t : State) : Prop :=
  match x.1 with
  | .rsmp => s.rsmp[x.2]? = t.rsmp[x.2]?
  | .nco => s.nco[x.2]? = t.nco[x.2]?
  | .pll => s.pll[x.2]? = t.pll[x.2]?

/-- `CFG_VALID` of the unit at a place, `none` where there is no unit. -/
def cfgValidAt (x : Kind × Nat) (s : State) : Option Bool :=
  match x.1 with
  | .rsmp => (s.rsmp[x.2]?).map Rsmp.cfgValid
  | .nco => (s.nco[x.2]?).map Nco.cfgValid
  | .pll => (s.pll[x.2]?).map Pll.cfgValid

/-- The configuration registers of an RSMP unit (section 3 of 10_state.md). -/
def rsmpConfigRegs (u : Rsmp) : Bool × BitVec 16 × BitVec 16 × List F := (u.cfgValid, u.phaseSteps, u.ntaps, u.taps)

/-- The configuration registers of an NCO unit (section 4 of 10_state.md). -/
def ncoConfigRegs (u : Nco) : Bool × DWord × BitVec 6 × Bool := (u.cfgValid, u.inc, u.ditherBits, u.intPhase)

/-- The configuration registers of a PLL unit (section 5 of 10_state.md). -/
def pllConfigRegs (u : Pll) : (Bool × Variant × Bool) × List F × Word :=
  ((u.cfgValid, u.variant, u.even),
   [u.freq0, u.minfreq, u.maxfreq, u.minsignal, u.osc0c, u.osc0s, u.osc1c, u.osc1s, u.lfB0, u.lfB1, u.ampK],
   u.lockDelay)

/-! ## The resampler (R142, R148, R150, R152, R153) -/

/-- None of the seven conditions of R142 holds. -/
def createLegal (n t : Word) (rate cutoff : CF) : Prop :=
  0 < n.toInt ∧ fin64 rate ∧ fin64 cutoff ∧ val64 cutoff < val64 rate / 2 ∧ 0 < t.toInt ∧ 0 < val64 rate ∧
    0 < val64 cutoff ∧ n.toNat ≤ 1024 ∧ t.toNat ≤ 1024 ∧ n.toNat * t.toNat ≤ 65536

/-- `h(k)` of R143: the Hamming-windowed sinc prototype of length `N T` at the rate `N Fs`. -/
noncomputable def prototypeOf (n t : Nat) (fs fc : ℝ) (k : Nat) : ℝ :=
  let len : Nat := n * t
  let wc : ℝ := 2 * Real.pi * fc / (n * fs)
  let m : ℝ := k - (len - 1) / 2
  let sinc : ℝ := if m = 0 then wc / Real.pi else Real.sin (wc * m) / (Real.pi * m)
  let window : ℝ := if len = 1 then 1 else 0.54 - 0.46 * Real.cos (2 * Real.pi * k / (len - 1))
  window * sinc

/-- `S(p)` of R144: the sum of the prototype's values in phase `p`. -/
noncomputable def phaseGain (n t : Nat) (fs fc : ℝ) (p : Nat) : ℝ :=
  ∑ i ∈ Finset.range t, prototypeOf n t fs fc (i * n + p)

/-- The sample of age `a` (R26, R63). -/
def sampleOfAge (u : Rsmp) (a : Nat) : Cplx := u.ring.getD ((u.wpos.toNat + a) % u.ntaps.toNat) ⟨0#32, 0#32⟩

/-- The unit after `x` is consumed: the write position moves to `(WPOS - 1) mod NTAPS` and `x` is there (R122, R148). -/
def consumed (u : Rsmp) (x : Cplx) : Rsmp :=
  let w := (u.wpos.toNat + u.ntaps.toNat - 1) % u.ntaps.toNat
  { u with ring := u.ring.set w x, wpos := BitVec.ofNat 16 w }

/-- One link of the accumulation chain. -/
def accumulate (acc : Cplx) (t : F) (x : Cplx) : Cplx := ⟨fadd acc.re (fmul t x.re), fadd acc.im (fmul t x.im)⟩

/-- `convolve(p)` as one fold over the taps (R152). -/
def dot (u : Rsmp) (p : Nat) : Cplx :=
  (List.range u.ntaps.toNat).foldl
    (fun acc i => accumulate acc (u.taps.getD (p * u.ntaps.toNat + i) 0#32) (sampleOfAge u i)) ⟨0#32, 0#32⟩

/-- The polyphase index `floor(distance * phaseSteps)` clamped at 0 (R150). -/
def phaseOf (u : Rsmp) (d : F) : Nat :=
  let prod := fmul d (itof u.phaseSteps.toNat)
  if prod = 0xFF800000#32 then 0 else ⌊valF prod⌋.toNat

/-- The chain over the ring elements `lo, ..., lo + count - 1`, from tap `i` on (R153). -/
def segment (u : Rsmp) (p i lo count : Nat) (acc : Cplx) : Cplx :=
  (List.range count).foldl
    (fun acc j => accumulate acc (u.taps.getD (p * u.ntaps.toNat + (i + j)) 0#32) (u.ring.getD (lo + j) ⟨0#32, 0#32⟩)) acc

/-! ## The oscillator (R123, R182, R184, R185, R187) -/

/-- `INC` of R182. -/
def incrementOf (pb : Nat) (freq rate : CF) : DWord :=
  BitVec.ofNat 64 (rhaQ (val64 freq * 2 ^ pb / val64 rate) % (2 ^ pb : ℤ)).toNat

/-- The unit after an advance (R184, R185) with the generator of R123, in naturals. -/
def advanced (pb : Nat) (u : Nco) : Nco :=
  let phase := (u.phase.toNat + u.inc.toNat) % 2 ^ pb
  let lfsr := if u.lfsr.toNat % 2 = 1 then u.lfsr.toNat / 2 ^^^ 0x80200003 else u.lfsr.toNat / 2
  if u.ditherBits.toNat = 0 then { u with phase := BitVec.ofNat 64 phase, dphase := BitVec.ofNat 64 phase }
  else
    { u with
      phase := BitVec.ofNat 64 phase
      lfsr := BitVec.ofNat 32 lfsr
      dphase := BitVec.ofNat 64 ((phase + lfsr % 2 ^ u.ditherBits.toNat) % 2 ^ pb) }

/-- `lookup(φ)` (R187), `φ` a natural below `2^pb`. -/
def sampleAt (pb : Nat) (intPhase : Bool) (φ : Nat) : F :=
  let idx := φ / 2 ^ (pb - 12)
  let t0 := cosTable.getD idx 0#32
  let t1 := cosTable.getD ((idx + 1) % 4096) 0#32
  if intPhase then t0 else fadd t0 (fmul (rndF (φ % 2 ^ (pb - 12) : Nat) (2 ^ (pb - 12))) (fsub t1 t0))

/-- The pair `(i, q)` of R189. -/
def pairAt (pb : Nat) (intPhase : Bool) (φ : Nat) : F × F :=
  (sampleAt pb intPhase φ, sampleAt pb intPhase ((φ + 2 ^ (pb - 2)) % 2 ^ pb) ^^^ 0x80000000#32)

/-- `n` times the same command, stopping at the first that does not answer a next state. -/
def repeatExec (i : Instr) : Nat → State → Host.Outcome State Fault Refusal
  | 0, s => .next s
  | n + 1, s =>
    match exec i s with
    | .next t => repeatExec i n t
    | .fault f => .fault f
    | .refused r => .refused r

/-! ## The loop (R212 to R230) -/

/-- `Tp = rha(1 / f)` (R217). -/
def periodOf (f : ℚ) : ℤ := rhaQ (1 / f)

/-- `LOCK_DELAY` (R217). -/
def lockDelayQ (f b : ℚ) : ℤ := ⌈20 / (b * periodOf f)⌉ * periodOf f

/-- None of the six conditions of R212 holds. -/
def configureLegal (freq bw minsig : CF) : Prop :=
  fin64 freq ∧ fin64 bw ∧ fin64 minsig ∧ 0 < val64 bw ∧ 0 < val64 freq - val64 bw ∧ val64 freq + val64 bw < 1 / 2 ∧
    0 ≤ val64 minsig ∧ lockDelayQ (val64 freq) (val64 bw) ≤ 2 ^ 32 - 1

/-- The output vector of R221. -/
def projection (v : Variant) (ps pc : F) (ph : DWord) : OutVec :=
  match v with
  | .simple => .simple ps pc
  | .stereo =>
      .stereo ps pc (fmul (fmul 0x40000000#32 ps) pc) (fsub (fmul (fmul 0x40000000#32 pc) pc) 0x3F800000#32)
  | .rds => .rds ps pc ph

/-- The result words of an output vector (R85, R89). -/
def outWords (pb : PhaseBits) : OutVec → List Word
  | .simple s c => [s, c]
  | .stereo s c s2 c2 => [s, c, s2, c2]
  | .rds s c ph =>
      match pb with
      | .w32 => [s, c, ph.setWidth 32]
      | .w64 => [s, c, ph.setWidth 32, (ph >>> 32).setWidth 32]

/-- The status word of a successful PLL command with `n` result words on a unit (R54, R86). -/
def pllStatus (u : Pll) (n : Nat) : Word :=
  BitVec.ofNat 32 ((if u.lockCnt = u.lockDelay then 0x400 else 0) + (if u.evq = [] then 0 else 0x800) +
    (if u.evOvf then 0x1000 else 0) + n * 0x10000)

/-- The new values of one PLL.PROCESS (R220): `PILOT'`, `pe`, `fu`, `FREQ'`, `PS'`, `PC'`. -/
structure Loop where
  pilot : F
  pe    : F
  fu    : F
  freq  : F
  ps    : F
  pc    : F

/-- Steps 3 to 6 of R220 with the formulas of R223, R224 and R226. -/
def loopStep (u : Pll) (x : F) : Loop :=
  let pilot := fadd u.pilot (fmul u.ampK (fsub (fmul u.ps x) u.pilot))
  let pe := fmul u.pc x
  let fu := fadd (fadd u.freq (fmul u.lfB0 pe)) (fmul u.lfB1 u.lfX1)
  let freq := if flt fu u.minfreq then u.minfreq else if fgt fu u.maxfreq then u.maxfreq else fu
  let dF := fsub freq u.freq0
  let kc := fadd u.osc0c (fmul dF u.osc1c)
  let ks := fadd u.osc0s (fmul dF u.osc1s)
  let c1 := fsub (fmul kc u.pc) (fmul ks u.ps)
  let s1 := fadd (fmul ks u.pc) (fmul kc u.ps)
  let m := fadd (fmul c1 c1) (fmul s1 s1)
  let g := fsub 0x3FC00000#32 (fmul 0x3F000000#32 m)
  { pilot := pilot, pe := pe, fu := fu, freq := freq, ps := fmul s1 g, pc := fmul c1 g }

/-- Every new value of the loop is finite (R225). -/
def Loop.finite (l : Loop) : Prop := finF l.pilot ∧ finF l.pe ∧ finF l.fu ∧ finF l.ps ∧ finF l.pc

/-- The phase sum of R228 on unbounded integers. -/
def phaseSum (pb : Nat) (u : Pll) (l : Loop) : ℤ := u.phase.toNat + rhaQ (valF l.freq * 2 ^ pb)

/-- The unit after PLL.PROCESS (R220 steps 5 to 9). -/
def processed (pb : Nat) (u : Pll) (x : F) : Pll :=
  let l := loopStep u x
  let wrap : Bool := decide ((2 ^ pb : ℤ) ≤ phaseSum pb u l)
  let full : Bool := decide (16 ≤ u.evq.length)
  { u with
    pilot := l.pilot
    lfX1 := l.pe
    freq := l.freq
    ps := l.ps
    pc := l.pc
    phase := BitVec.ofNat 64 (phaseSum pb u l % (2 ^ pb : ℤ)).toNat
    lockCnt :=
      if fge (fmul 0x40000000#32 l.pilot) u.minsignal then
        BitVec.ofNat 32 (min (u.lockCnt.toNat + 1) u.lockDelay.toNat) else 0#32
    periodIdx := if wrap then BitVec.ofNat 32 ((u.periodIdx.toNat + 1) % 2 ^ 32) else u.periodIdx
    sampleCnt := BitVec.ofNat 64 ((u.sampleCnt.toNat + 1) % 2 ^ 64)
    blockPos := BitVec.ofNat 32 ((u.blockPos.toNat + 1) % 2 ^ 32)
    evq := if wrap && u.even && !full then u.evq ++ [⟨u.periodIdx, u.sampleCnt, u.blockPos⟩] else u.evq
    evOvf := if wrap && u.even && full then true else u.evOvf
    out := projection u.variant u.ps u.pc u.phase }

/-- PLL.PROCESS of each sample in turn on one unit, stopping at the first that does not answer a next state. -/
def processAll (k : BitVec 4) : List F → State → Host.Outcome State Fault Refusal
  | [], s => .next s
  | x :: xs, s =>
    match exec (.pllProcess k x) s with
    | .next t => processAll k xs t
    | .fault f => .fault f
    | .refused r => .refused r

/-- The words of an event record in sending order (R89, R235). -/
def recordWords (e : EventRecord) : List Word :=
  [e.index, e.sampleCount.setWidth 32, (e.sampleCount >>> 32).setWidth 32, e.blockPos]

end Sys2Proof.Claims

open Sys2Proof Sys2Proof.Machine Sys2Proof.Claims

/-! ## Encoding -/

/-- R81, R84, R88, R89: the decoder reads every well-formed command back from the words the encoder writes. -/
def Obligations.DecodeOfEncodeIsCommand : Prop :=
  ∀ i : Instr, i.wellFormed = true → decode (encode i) = .command i

/-- R90: "every encoding is either one of the 21 commands or illegal": a packet that decodes is the encoding of the
command it decodes to, which is well-formed. -/
def Obligations.EncodeOfDecodeIsPacket : Prop :=
  ∀ (p : Packet) (i : Instr), decode p = .command i → encode i = p ∧ i.wellFormed = true

/-- R106 and R88: words written out from the tables decode to the commands they stand for, one or more of each unit. -/
def Obligations.WrittenWordsDecode : Prop :=
  decode ⟨0x21010008#32, [0x00000000#32, 0x408F4000#32, 0x00000000#32, 0x40E77000#32]⟩ =
      .command (.ncoSetfreq 1#4 false 8#6 0x408F400000000000#64 0x40E7700000000000#64) ∧
  decode ⟨0x10040001#32, [0x3F000000#32, 0x3F800000#32, 0xC0000000#32]⟩ =
      .command (.rsmpResample 0#4 true 0x3F000000#32 0x3F800000#32 0xC0000000#32) ∧
  decode ⟨0x32010101#32, [0x00000000#32, 0x3FD00000#32, 0x9999999A#32, 0x3FA99999#32, 0x9999999A#32, 0x3FA99999#32]⟩ =
      .command (.pllConfigure 2#4 true 1#2 0x3FD0000000000000#64 0x3FA999999999999A#64 0x3FA999999999999A#64) ∧
  decode ⟨0x1305ABCD#32, [0x00000007#32]⟩ = .command (.rsmpRdtap 3#4 0xABCD#16 0x00000007#32) ∧
  decode ⟨0x00030000#32, []⟩ = .command .coreErr

/-- R87, R88, R89: a packet is the command of a row exactly when its header, under the mask the table prints, is the match
the table prints, its payload has `NPAY` words, and in PLL.CONFIGURE `VAR` is not 3 (R84); the rows are disjoint. -/
def Obligations.HeaderSelectsTableRow : Prop :=
  (∀ (p : Packet) (op : Opcode),
    (∃ i, decode p = .command i ∧ i.opcode = op) ↔
      (p.header &&& rowMask op = rowMatch op ∧ p.payload.length = op.npay ∧
        (op = .pllConfigure → p.header.toNat % 4 ≠ 3))) ∧
  (∀ (h : Word) (op op' : Opcode), h &&& rowMask op = rowMatch op → h &&& rowMask op' = rowMatch op' → op = op')

/-- R67: on a byte-wide transport each word is sent least significant byte first, and the words come back from the bytes;
a 64-bit value is its low word and then its high word. -/
def Obligations.TransportIsLittleEndian : Prop :=
  (∀ ws : List Word, wordsOfBytes (bytesOfWords ws) = some ws) ∧
  (∀ (w : Word) (j : Nat), j < 4 → ((wordBytes w).getD j 0#8).toNat = w.toNat / 2 ^ (8 * j) % 2 ^ 8) ∧
  (∀ v : DWord, joinWords (v.setWidth 32) ((v >>> 32).setWidth 32) = v ∧
    dwordWords v = [v.setWidth 32, (v >>> 32).setWidth 32])

/-! ## The step -/

/-- The step takes the oldest command on the port and is `exec` of the command it decodes to, in the state with that
command taken off the port; the port is the model's (log 2). -/
def Obligations.StepRunsDecodedCommand : Prop :=
  ∀ (s : State) (p : Packet) (rest : List PortEvent) (i : Instr),
    s.input = .command p :: rest → decode p = .command i → step s = exec i { s with input := rest }

/-- R274: a packet that is no command sets bit 2 of ERRFLAGS and is answered by the one word IllegalCommand; its payload is
discarded and nothing else changes. -/
def Obligations.IllegalPacketRaises : Prop :=
  ∀ (s : State) (p : Packet) (rest : List PortEvent) (e : DecodeError),
    s.input = .command p :: rest → decode p = .illegal e →
      step s = .next { s with input := rest, errFlags := s.errFlags ||| 0x00000004#32, response := [0x00000002#32] }

/-- R57, R288, R300 and R301, and the model's port (log 2, 3, 5): with nothing on the port the core keeps all state; the
reset input gives every unit and ERRFLAGS the values that R57 states, sends no response, and has the same effect as CORE.RESET
(on the registers that R57 leaves unspecified too, log 1) but for the response. -/
def Obligations.IdlePortAndResetInput : Prop :=
  (∀ s : State, s.input = [] → step s = .next s) ∧
  (∀ (s : State) (rest : List PortEvent), s.input = .hardwareReset :: rest →
    ∃ t, step s = .next t ∧ t.cfg = s.cfg ∧ t.input = rest ∧ t.response = [] ∧ t.errFlags = 0#32 ∧
      t.rsmp.length = s.rsmp.length ∧ t.nco.length = s.nco.length ∧ t.pll.length = s.pll.length ∧
      (∀ u ∈ t.rsmp, u.cfgValid = false ∧ u.phaseSteps = 0#16 ∧ u.ntaps = 0#16 ∧ u.wpos = 0#16) ∧
      (∀ u ∈ t.nco, u = { cfgValid := false, phase := 0#64, inc := 0#64, ditherBits := 0#6, intPhase := false,
                          lfsr := 0x00000001#32, dphase := 0#64 }) ∧
      (∀ u ∈ t.pll, u.cfgValid = false ∧ u.evq = []) ∧
      exec .coreReset { s with input := rest } = .next { t with response := [0x00000000#32] })

/-- R79 and R60: from a state whose RSMP units meet their invariant no step faults or refuses, whatever is on the port. -/
def Obligations.StepNeverStops : Prop :=
  ∀ s : State, s.rsmpsOk → s.stepsSafely

/-- R7, R20: no step changes the parameters or the number of units. -/
def Obligations.StepKeepsCounts : Prop :=
  ∀ s t : State, step s = .next t →
    t.cfg = s.cfg ∧ t.rsmp.length = s.rsmp.length ∧ t.nco.length = s.nco.length ∧ t.pll.length = s.pll.length

/-! ## Reset -/

/-- R57: the values that the spec gives for reset, for every value of the parameters; the port of the model is empty and
holds no response (log 2). -/
def Obligations.ResetStateValues : Prop :=
  State.reset = State.initial Config.standard ∧
  Config.standard.pb = 32 ∧ Config.standard.nRsmp = 4 ∧ Config.standard.nNco = 4 ∧ Config.standard.nPll = 4 ∧
  ∀ c : Config,
    (State.initial c).cfg = c ∧ (State.initial c).input = [] ∧ (State.initial c).response = [] ∧
    (State.initial c).errFlags = 0#32 ∧
    (State.initial c).rsmp.length = c.nRsmp ∧ (State.initial c).nco.length = c.nNco ∧
    (State.initial c).pll.length = c.nPll ∧
    (∀ u ∈ (State.initial c).rsmp,
      u.cfgValid = false ∧ u.phaseSteps = 0#16 ∧ u.ntaps = 0#16 ∧ u.wpos = 0#16) ∧
    (∀ u ∈ (State.initial c).nco,
      u = { cfgValid := false, phase := 0#64, inc := 0#64, ditherBits := 0#6, intPhase := false,
            lfsr := 0x00000001#32, dphase := 0#64 }) ∧
    (∀ u ∈ (State.initial c).pll, u.cfgValid = false ∧ u.evq = [])

/-- Every invariant of the statements below holds right after reset, for every legal value of the parameters. -/
def Obligations.ResetMeetsInvariants : Prop :=
  ∀ c : Config, c.valid = true →
    (State.initial c).rsmpsOk ∧ (State.initial c).ncosOk ∧ (State.initial c).pllsOk ∧ (State.initial c).CountsOk ∧
      (State.initial c).errFlags &&& errReserved = 0#32

/-! ## CORE -/

/-- R260: CORE.NOP completes in every state, changes nothing but the response, has the all-zero header, and is
IllegalCommand with payload words. -/
def Obligations.NopChangesNothing : Prop :=
  (∀ s : State, exec .coreNop s = .next { s with response := [0x00000000#32] }) ∧
  encode .coreNop = ⟨0x00000000#32, []⟩ ∧
  decode ⟨0x00000000#32, []⟩ = .command .coreNop ∧
  (∀ (w : Word) (ws : List Word), ∃ e, decode ⟨0x00000000#32, w :: ws⟩ = .illegal e)

/-- R261: CORE.RESET completes in every state and puts every unit and ERRFLAGS in the reset state of R57 (the registers
that R57 leaves unspecified are not named). -/
def Obligations.ResetCommandResets : Prop :=
  ∀ s : State, ∃ t, exec .coreReset s = .next t ∧
    t.response = [0x00000000#32] ∧ t.errFlags = 0#32 ∧ t.cfg = s.cfg ∧ t.input = s.input ∧
    t.rsmp.length = s.rsmp.length ∧ t.nco.length = s.nco.length ∧ t.pll.length = s.pll.length ∧
    (∀ u ∈ t.rsmp, u.cfgValid = false ∧ u.phaseSteps = 0#16 ∧ u.ntaps = 0#16 ∧ u.wpos = 0#16) ∧
    (∀ u ∈ t.nco, u = { cfgValid := false, phase := 0#64, inc := 0#64, ditherBits := 0#6, intPhase := false,
                        lfsr := 0x00000001#32, dphase := 0#64 }) ∧
    (∀ u ∈ t.pll, u.cfgValid = false ∧ u.evq = [])

/-- R262: CORE.ID completes in every state with legal parameters and answers the identity word and the parameter word;
0x13330C20 for the default parameters. -/
def Obligations.IdAnswersParameters : Prop :=
  (∀ s : State, s.cfg.valid = true →
    exec .coreId s = .next { s with response := [0x00020000#32, 0x53303531#32,
      BitVec.ofNat 32 (s.cfg.pb + 12 * 2 ^ 8 + (s.cfg.nRsmp - 1) * 2 ^ 16 + (s.cfg.nNco - 1) * 2 ^ 20 +
        (s.cfg.nPll - 1) * 2 ^ 24 + 1 * 2 ^ 28)] }) ∧
  idParams Config.standard = 0x13330C20#32

/-- R263: CORE.ERR completes in every state, answers ERRFLAGS and does not clear it. -/
def Obligations.ErrReadsFlags : Prop :=
  ∀ s : State, exec .coreErr s = .next { s with response := [0x00010000#32, s.errFlags] }

/-! ## Errors -/

/-- R55: a set bit of ERRFLAGS stays set over every step that takes neither CORE.RESET nor the reset input, and bit 0 and
bits 31 to 9 stay 0 over every step. -/
def Obligations.ErrFlagsSticky : Prop :=
  (∀ s t : State, step s = .next t → s.input.head? ≠ some .hardwareReset →
    s.input.head? ≠ some (.command ⟨0x00010000#32, []⟩) → s.errFlags &&& t.errFlags = s.errFlags) ∧
  (∀ s t : State, s.errFlags &&& errReserved = 0#32 → step s = .next t → t.errFlags &&& errReserved = 0#32)

/-- R272, R282: a command answered with an error code leaves every unit as it was, the sticky bit of the code set and the
one-word response. InvalidConfiguration, raised by configuration commands only, leaves every unit but the addressed one as it
was, and `CFG_VALID` of that one is 0: of an NCO unit nothing else changes (R181), the other registers of an RSMP or PLL unit
are free values (R147, R219, log 4), of which nothing is said here. -/
def Obligations.ErrorsArePrecise : Prop :=
  ∀ (i : Instr) (s t : State) (w : Word) (ws : List Word),
    exec i s = .next t → t.response = w :: ws → w.toNat % 2 ^ 8 ≠ 0 →
      ∃ e : ErrorCode, w = BitVec.ofNat 32 e.code ∧ ws = [] ∧
        t.errFlags = s.errFlags ||| BitVec.ofNat 32 (2 ^ e.code) ∧ t.cfg = s.cfg ∧ t.input = s.input ∧
        (e ≠ .invalidConfiguration → t.rsmp = s.rsmp ∧ t.nco = s.nco ∧ t.pll = s.pll) ∧
        (e = .invalidConfiguration → isConfiguration i ∧
          ∃ x, target i = some x ∧ cfgValidAt x t = some false ∧ (∀ y, y ≠ x → sameAt y s t) ∧
            (x.1 = .nco → ∃ u, s.nco[x.2]? = some u ∧ t.nco[x.2]? = some { u with cfgValid := false }))

/-- R275: a command to a unit that is not there is answered BadInstance and changes nothing but bit 3 of ERRFLAGS. -/
def Obligations.MissingUnitRaisesBadInstance : Prop :=
  ∀ (i : Instr) (s : State) (kind : Kind) (k : Nat),
    s.CountsOk → target i = some (kind, k) → unitCount s.cfg kind ≤ k →
      exec i s = .next { s with errFlags := s.errFlags ||| 0x00000008#32, response := [0x00000003#32] }

/-- R276: every RSMP, NCO and PLL command but the three configuration commands, addressed to a unit with `CFG_VALID = 0`,
is answered NotConfigured and changes nothing but bit 4 of ERRFLAGS. -/
def Obligations.UnconfiguredUnitRaisesNotConfigured : Prop :=
  ∀ (i : Instr) (s : State) (x : Kind × Nat),
    target i = some x → cfgValidAt x s = some false → ¬ isConfiguration i →
      exec i s = .next { s with errFlags := s.errFlags ||| 0x00000010#32, response := [0x00000004#32] }

/-- R277: on a configured unit a NaN distance, and a PLL sample that is a NaN or an infinity, are answered BadOperand, and
nothing changes but bit 5 of ERRFLAGS. -/
def Obligations.UnusableOperandRaisesBadOperand : Prop :=
  (∀ (s : State) (k : BitVec 4) (d re im : F) (cin : Bool), cfgValidAt (.rsmp, k.toNat) s = some true → fIsNaN d = true →
    ∀ i ∈ [Instr.rsmpDecimate k d re im, .rsmpInterpolate k d re im, .rsmpResample k cin d re im],
      exec i s = .next { s with errFlags := s.errFlags ||| 0x00000020#32, response := [0x00000005#32] }) ∧
  (∀ (s : State) (k : BitVec 4) (x : F), cfgValidAt (.pll, k.toNat) s = some true → ¬ finF x →
    exec (.pllProcess k x) s =
      .next { s with errFlags := s.errFlags ||| 0x00000020#32, response := [0x00000005#32] })

/-- R278: on a configured unit RSMP.INTERPOLATE with a distance that is no NaN is answered PhaseRange, with nothing changed
but bit 6 of ERRFLAGS, exactly when the distance is at least 2.0. -/
def Obligations.PhaseRangeExactlyFromTwo : Prop :=
  ∀ (s : State) (k : BitVec 4) (d re im : F) (u : Rsmp),
    s.rsmp[k.toNat]? = some u → u.cfgValid = true → RsmpOk u → fIsNaN d = false →
      (exec (.rsmpInterpolate k d re im) s =
          .next { s with errFlags := s.errFlags ||| 0x00000040#32, response := [0x00000006#32] } ↔
        fge d 0x40000000#32 = true)

/-! ## RSMP -/

/-- R141, R146: RSMP.CREATE with legal operands whose design is not degenerate completes: the new sizes, the bank, a ring of
zeros, `WPOS = 0`, `CFG_VALID = 1`; nothing else changes. The bank is that of `designBank` (log 10, 11, 12). -/
def Obligations.CreateBuildsBank : Prop :=
  ∀ (s : State) (k : BitVec 4) (n t : Word) (rate cutoff : CF) (u : Rsmp) (bank : List F),
    s.rsmp[k.toNat]? = some u → createLegal n t rate cutoff → designBank n.toNat t.toNat rate cutoff = some bank →
      exec (.rsmpCreate k n t rate cutoff) s = .next { s with
        rsmp := s.rsmp.set k.toNat
          { cfgValid := true, phaseSteps := n.setWidth 16, ntaps := t.setWidth 16, wpos := 0#16, taps := bank,
            ring := List.replicate t.toNat ⟨0#32, 0#32⟩, freeIx := u.freeIx }
        response := [0x00000000#32] }

/-- R142, R144, R147: RSMP.CREATE with operands outside the valid set, or with a degenerate bank, is answered
InvalidConfiguration; the unit's `CFG_VALID` is 0 (its other registers are free values, log 4) and nothing else changes but
bit 1 of ERRFLAGS. -/
def Obligations.CreateRejects : Prop :=
  ∀ (s : State) (k : BitVec 4) (n t : Word) (rate cutoff : CF) (u : Rsmp),
    s.rsmp[k.toNat]? = some u →
    (¬ createLegal n t rate cutoff ∨ designBank n.toNat t.toNat rate cutoff = none) →
      ∃ u' : Rsmp, u'.cfgValid = false ∧
        exec (.rsmpCreate k n t rate cutoff) s = .next { s with
          rsmp := s.rsmp.set k.toNat u', errFlags := s.errFlags ||| 0x00000002#32, response := [0x00000001#32] }

/-- R60, R145: a designed bank has `phaseSteps * tapsPerPhase` elements, every one finite. -/
def Obligations.BankIsCompleteAndFinite : Prop :=
  ∀ (n t : Nat) (rate cutoff : CF) (bank : List F), designBank n t rate cutoff = some bank →
    bank.length = n * t ∧ ∀ a ∈ bank, finF a

/-- R143 to R145, with the tolerance of this model (log 10): tap `i` of phase `p` of a designed bank is
`h(i N + p) / S(p)` to within one part in 2^23 and 2^-120, where the gain `S(p)` is not vanishingly small beside `wc / π`. -/
def Obligations.BankFollowsPrototype : Prop :=
  ∀ (n t : Word) (rate cutoff : CF) (bank : List F) (p i : Nat) (a : F),
    createLegal n t rate cutoff → designBank n.toNat t.toNat rate cutoff = some bank → p < n.toNat → i < t.toNat →
    bank[p * t.toNat + i]? = some a →
      let fs : ℝ := ((val64 rate : ℚ) : ℝ)
      let fc : ℝ := ((val64 cutoff : ℚ) : ℝ)
      let gain := phaseGain n.toNat t.toNat fs fc p
      let tap := prototypeOf n.toNat t.toNat fs fc (i * n.toNat + p) / gain
      2 * fc / (n.toNat * fs) / 2 ^ 100 ≤ |gain| → |((valF a : ℚ) : ℝ) - tap| ≤ |tap| / 2 ^ 23 + 1 / 2 ^ 120

/-- R145: the bank is mirror symmetric bit for bit: tap `i` of phase `p` is tap `t - 1 - i` of phase `n - 1 - p`. -/
def Obligations.BankIsMirrorSymmetric : Prop :=
  ∀ (n t : Nat) (rate cutoff : CF) (bank : List F), designBank n t rate cutoff = some bank →
    ∀ p i : Nat, p < n → i < t → bank[p * t + i]? = bank[(n - 1 - p) * t + (t - 1 - i)]?

/-- R154: RSMP.DECIMATE on a configured unit completes for every distance that is no NaN and every sample: the sample is
consumed, and below 1 the output of the phase of the decremented distance is answered; nothing else changes. -/
def Obligations.DecimateConsumesAndAnswers : Prop :=
  ∀ (s : State) (k : BitVec 4) (d re im : F) (u : Rsmp),
    s.rsmp[k.toNat]? = some u → u.cfgValid = true → RsmpOk u → fIsNaN d = false →
      let d1 := fsub d 0x3F800000#32
      let u' := consumed u ⟨re, im⟩
      let y := dot u' (phaseOf u d1)
      exec (.rsmpDecimate k d re im) s = .next { s with
        rsmp := s.rsmp.set k.toNat u'
        response := if fge d1 0x3F800000#32 then [0x00010200#32, d1] else [0x00030300#32, d1, y.re, y.im] }

/-- R155: RSMP.INTERPOLATE on a configured unit completes for every distance below 2 that is no NaN: it consumes when the
distance is at least 1 and always answers an output; nothing else changes. -/
def Obligations.InterpolateAlwaysAnswers : Prop :=
  ∀ (s : State) (k : BitVec 4) (d re im : F) (u : Rsmp),
    s.rsmp[k.toNat]? = some u → u.cfgValid = true → RsmpOk u → fIsNaN d = false → fge d 0x40000000#32 = false →
      let d1 := if fge d 0x3F800000#32 then fsub d 0x3F800000#32 else d
      let u' := if fge d 0x3F800000#32 then consumed u ⟨re, im⟩ else u
      let y := dot u' (phaseOf u d1)
      exec (.rsmpInterpolate k d re im) s = .next { s with
        rsmp := s.rsmp.set k.toNat u'
        response := [if fge d 0x3F800000#32 then 0x00030300#32 else 0x00030100#32, d1, y.re, y.im] }

/-- R156: RSMP.RESAMPLE on a configured unit completes for every distance that is no NaN, with `CIN` 0 and 1: it consumes at
most once, answers an output when the distance is below 1, and otherwise asks for the next input; nothing else changes. -/
def Obligations.ResampleFollowsItsLoop : Prop :=
  ∀ (s : State) (k : BitVec 4) (cin : Bool) (d re im : F) (u : Rsmp),
    s.rsmp[k.toNat]? = some u → u.cfgValid = true → RsmpOk u → fIsNaN d = false →
      let eats := fge d 0x3F800000#32 && !cin
      let d1 := if eats then fsub d 0x3F800000#32 else d
      let u' := if eats then consumed u ⟨re, im⟩ else u
      let y := dot u' (phaseOf u d1)
      exec (.rsmpResample k cin d re im) s = .next { s with
        rsmp := s.rsmp.set k.toNat u'
        response :=
          if fge d1 0x3F800000#32 then [0x00010200#32, d1]
          else [if cin || eats then 0x00030300#32 else 0x00030100#32, d1, y.re, y.im] }

/-- R158, R281: RSMP.RDTAP on a configured unit answers the element and writes nothing when both indices are in range, and
otherwise is answered BadIndex with nothing changed but bit 8 of ERRFLAGS. -/
def Obligations.RdtapReadsOrRaisesBadIndex : Prop :=
  ∀ (s : State) (k : BitVec 4) (p : BitVec 16) (j : Word) (u : Rsmp),
    s.rsmp[k.toNat]? = some u → u.cfgValid = true → RsmpOk u →
      (p.toNat < u.phaseSteps.toNat ∧ j.toNat < u.ntaps.toNat →
        exec (.rsmpRdtap k p j) s = .next { s with
          response := [0x00010000#32, u.taps.getD (p.toNat * u.ntaps.toNat + j.toNat) 0#32] }) ∧
      (u.phaseSteps.toNat ≤ p.toNat ∨ u.ntaps.toNat ≤ j.toNat →
        exec (.rsmpRdtap k p j) s =
          .next { s with errFlags := s.errFlags ||| 0x00000100#32, response := [0x00000008#32] })

/-- R160: for a distance in [1, 2) the three data commands do the same and answer the same. -/
def Obligations.ModesAgreeFromOneToTwo : Prop :=
  ∀ (s : State) (k : BitVec 4) (d re im : F), s.rsmpsOk → fge d 0x3F800000#32 = true → fge d 0x40000000#32 = false →
    exec (.rsmpInterpolate k d re im) s = exec (.rsmpDecimate k d re im) s ∧
    exec (.rsmpResample k false d re im) s = exec (.rsmpDecimate k d re im) s

/-- R153: the convolution is the chain that runs through the ring from `WPOS` to its end and, with the same accumulator, on
through the elements before `WPOS`. -/
def Obligations.ConvolutionRunsThroughBothSegments : Prop :=
  ∀ (u : Rsmp) (p : Nat), u.cfgValid = true → RsmpOk u → p < u.phaseSteps.toNat →
    convolve u p = some
      (segment u p (u.ntaps.toNat - u.wpos.toNat) 0 u.wpos.toNat
        (segment u p 0 u.wpos.toNat (u.ntaps.toNat - u.wpos.toNat) ⟨0#32, 0#32⟩))

/-- R148: a consumption makes the sample the newest, ages every other sample by one and drops the oldest; no other register
of the unit changes. -/
def Obligations.ConsumptionShiftsAges : Prop :=
  ∀ (u : Rsmp) (x : Cplx), u.cfgValid = true → RsmpOk u →
    ∃ u', rsmpConsume u x = some u' ∧ sampleOfAge u' 0 = x ∧
      (∀ a, a + 1 < u.ntaps.toNat → sampleOfAge u' (a + 1) = sampleOfAge u a) ∧
      { u' with ring := u.ring, wpos := u.wpos } = u

/-- R23 to R28, R145: every step keeps the invariant of every RSMP unit. -/
def Obligations.StepKeepsRsmpInvariant : Prop :=
  ∀ s t : State, s.rsmpsOk → step s = .next t → t.rsmpsOk

/-! ## NCO -/

/-- R181, R182: NCO.SETFREQ with valid operands completes: the increment is the exact quotient rounded half away from zero
and reduced modulo 2^PB; `PHASE` and `LFSR` are kept, `DPHASE` becomes `PHASE`, and nothing else changes. -/
def Obligations.SetfreqSetsIncrement : Prop :=
  ∀ (s : State) (k : BitVec 4) (ip : Bool) (db : BitVec 6) (freq rate : CF) (u : Nco),
    s.nco[k.toNat]? = some u → fin64 freq → fin64 rate → 0 < val64 rate → db.toNat ≤ s.cfg.pb - 12 →
      exec (.ncoSetfreq k ip db freq rate) s = .next { s with
        nco := s.nco.set k.toNat
          { cfgValid := true, phase := u.phase, inc := incrementOf s.cfg.pb freq rate, ditherBits := db, intPhase := ip,
            lfsr := u.lfsr, dphase := u.phase }
        response := [0x00000000#32] }

/-- R181: NCO.SETFREQ with an operand outside the valid set is answered InvalidConfiguration; of the unit only `CFG_VALID`
is written, and nothing else changes but bit 1 of ERRFLAGS. -/
def Obligations.SetfreqRejects : Prop :=
  ∀ (s : State) (k : BitVec 4) (ip : Bool) (db : BitVec 6) (freq rate : CF) (u : Nco),
    s.nco[k.toNat]? = some u → (¬ fin64 freq ∨ ¬ fin64 rate ∨ val64 rate ≤ 0 ∨ s.cfg.pb - 12 < db.toNat) →
      exec (.ncoSetfreq k ip db freq rate) s = .next { s with
        nco := s.nco.set k.toNat { u with cfgValid := false }
        errFlags := s.errFlags ||| 0x00000002#32
        response := [0x00000001#32] }

/-- R184 to R186, R123: NCO.NEXTPHASE on a configured unit completes, advances the unit and changes nothing else. -/
def Obligations.NextphaseAdvances : Prop :=
  ∀ (s : State) (k : BitVec 4) (u : Nco), s.nco[k.toNat]? = some u → u.cfgValid = true →
    exec (.ncoNextphase k) s = .next { s with
      nco := s.nco.set k.toNat (advanced s.cfg.pb u), response := [0x00000000#32] }

/-- R187 to R189: NCO.GET and NCO.GETIQ on a configured unit complete, answer the sample or the pair of `DPHASE`, and write
nothing. -/
def Obligations.GetAnswersSampleOfPhase : Prop :=
  ∀ (s : State) (k : BitVec 4) (u : Nco), s.nco[k.toNat]? = some u → u.cfgValid = true → NcoOk s.cfg.pb u →
    let y := pairAt s.cfg.pb u.intPhase u.dphase.toNat
    exec (.ncoGet k) s = .next { s with response := [0x00010000#32, y.1] } ∧
    exec (.ncoGetiq k) s = .next { s with response := [0x00020000#32, y.1, y.2] }

/-- R190, R191: NCO.NEXT and NCO.NEXTIQ on a configured unit complete and equal, in state and response, NCO.NEXTPHASE
followed by NCO.GET and by NCO.GETIQ. -/
def Obligations.NextIsNextphaseThenGet : Prop :=
  ∀ (s : State) (k : BitVec 4) (u : Nco), s.nco[k.toNat]? = some u → u.cfgValid = true →
    ∃ a b c, exec (.ncoNextphase k) s = .next a ∧
      exec (.ncoGet k) a = .next b ∧ exec (.ncoNext k) s = .next b ∧
      exec (.ncoGetiq k) a = .next c ∧ exec (.ncoNextiq k) s = .next c ∧
      (∃ v, b.response = [0x00010000#32, v]) ∧ (∃ v w, c.response = [0x00020000#32, v, w])

/-- R192: without dither, a number of advances that takes the increment through whole turns brings the whole machine back to
where it was, but for the response. -/
def Obligations.WholeTurnsReturnPhase : Prop :=
  ∀ (s : State) (k : BitVec 4) (u : Nco) (m : Nat),
    s.nco[k.toNat]? = some u → u.cfgValid = true → NcoOk s.cfg.pb u → u.ditherBits = 0#6 → 0 < m →
    m * u.inc.toNat % 2 ^ s.cfg.pb = 0 →
      repeatExec (.ncoNextphase k) m s = .next { s with response := [0x00000000#32] }

/-- R183: after NCO.SETFREQ the frequency that the increment realises differs from the requested one, up to whole multiples
of the sample rate, by at most half a frequency step. -/
def Obligations.RealizedFrequencyIsNear : Prop :=
  ∀ (s t : State) (k : BitVec 4) (ip : Bool) (db : BitVec 6) (freq rate : CF) (u : Nco),
    exec (.ncoSetfreq k ip db freq rate) s = .next t → t.nco[k.toNat]? = some u → u.cfgValid = true →
      ∃ m : ℤ, |((u.inc.toNat : ℚ) + m * 2 ^ s.cfg.pb) * val64 rate / 2 ^ s.cfg.pb - val64 freq| ≤
        val64 rate / 2 ^ (s.cfg.pb + 1)

/-- R31 to R33, R36, R37: every step keeps the invariant of every NCO unit; in particular the dither generator never
reaches 0 and the dithered phase stays within the dither range of the true phase. -/
def Obligations.StepKeepsNcoInvariant : Prop :=
  ∀ s t : State, s.ncosOk → step s = .next t → t.ncosOk

/-- R66: the four exact points of the cosine table and its two symmetries. -/
def Obligations.CosineTableSymmetries : Prop :=
  cosRead 0 = 0x3F800000#32 ∧ cosRead 1024 = 0x00000000#32 ∧ cosRead 2048 = 0xBF800000#32 ∧
  cosRead 3072 = 0x00000000#32 ∧
  (∀ i, 0 < i → i < 4096 → cosRead (4096 - i) = cosRead i) ∧
  (∀ i, i < 2048 → i ≠ 1024 → cosRead (i + 2048) = fneg (cosRead i))

/-- R66: every entry of the cosine table is the cosine of its angle to within one part in 2^24, the error of one rounding. -/
def Obligations.CosineTableIsAccurate : Prop :=
  ∀ i : Nat, i < 4096 →
    |((valF (cosRead i) : ℚ) : ℝ) - Real.cos (2 * Real.pi * i / 4096)| ≤ |Real.cos (2 * Real.pi * i / 4096)| / 2 ^ 24

/-! ## PLL -/

/-- R211 to R218: PLL.CONFIGURE with operands that R212 accepts completes: the derived registers are the exact values rounded
once, the lock delay is that of R217, the running state starts unlocked at phase zero with an empty queue; nothing else
changes. MINSIGNAL is the rounding of R214 for every operand, +Inf from 2^128 - 2^103 on (R112, log 13). What the oscillator
pairs are is the subject of OscillatorPairIsAccurate. -/
def Obligations.ConfigureStartsLoop : Prop :=
  ∀ (s : State) (k : BitVec 4) (even : Bool) (var : BitVec 2) (freq bw minsig : CF) (u : Pll) (v : Variant),
    s.pll[k.toNat]? = some u → (var, v) ∈ [(0#2, Variant.simple), (1#2, .stereo), (2#2, .rds)] →
    configureLegal freq bw minsig →
      let f := val64 freq
      let b := val64 bw
      ∃ u' : Pll,
        exec (.pllConfigure k even var freq bw minsig) s = .next { s with
          pll := s.pll.set k.toNat u', response := [0x00000000#32] } ∧
        u'.cfgValid = true ∧ u'.variant = v ∧ u'.even = even ∧
        RoundsTo f u'.freq0 ∧ RoundsTo (f - b) u'.minfreq ∧ RoundsTo (f + b) u'.maxfreq ∧
        RoundsTo (val64 minsig) u'.minsignal ∧
        RoundsTo (62 / 100 * b) u'.lfB0 ∧ RoundsTo (-(62 / 100) * b * (1 - 7245 / 10000 * b)) u'.lfB1 ∧
        RoundsTo (4 * b) u'.ampK ∧ u'.osc0c = oscCos u'.freq0 ∧ u'.osc0s = oscSin u'.freq0 ∧
        u'.osc1c = oscCosDerivative u'.freq0 ∧ u'.osc1s = oscSinDerivative u'.freq0 ∧ (u'.lockDelay.toNat : ℤ) = lockDelayQ f b ∧
        u'.phase = 0#64 ∧ u'.freq = u'.freq0 ∧ u'.ps = 0x00000000#32 ∧ u'.pc = 0x3F800000#32 ∧
        u'.lfX1 = 0x00000000#32 ∧ u'.pilot = 0x00000000#32 ∧ u'.lockCnt = 0#32 ∧ u'.periodIdx = 0#32 ∧
        u'.sampleCnt = 0#64 ∧ u'.blockPos = 0#32 ∧ u'.evq = [] ∧ u'.evOvf = false ∧
        u'.out = (match v with
          | .simple => .simple 0x00000000#32 0x3F800000#32
          | .stereo => .stereo 0x00000000#32 0x3F800000#32 0x00000000#32 0x3F800000#32
          | .rds => .rds 0x00000000#32 0x3F800000#32 0#64)

/-- R212, R219: PLL.CONFIGURE with operands outside the valid set is answered InvalidConfiguration; the unit's `CFG_VALID`
is 0 (its other registers are free values, log 4) and nothing else changes but bit 1 of ERRFLAGS. -/
def Obligations.ConfigureRejects : Prop :=
  ∀ (s : State) (k : BitVec 4) (even : Bool) (var : BitVec 2) (freq bw minsig : CF) (u : Pll),
    s.pll[k.toNat]? = some u → var ≠ 3#2 → ¬ configureLegal freq bw minsig →
      ∃ u' : Pll, u'.cfgValid = false ∧
        exec (.pllConfigure k even var freq bw minsig) s = .next { s with
          pll := s.pll.set k.toNat u', errFlags := s.errFlags ||| 0x00000002#32, response := [0x00000001#32] }

/-- R39, R112, R214: after a successful PLL.CONFIGURE `FREQ0`, `MINFREQ` and `MAXFREQ` are finite,
`0 < MINFREQ <= FREQ0 <= MAXFREQ <= 0.5` in value, and MINSIGNAL is at least 0: finite for a `minsignal` below 2^128 - 2^103,
and +Inf from there on, where the model follows R214 and R112 against R39's word "finite" (log 13). -/
def Obligations.FrequencyRegistersAreOrdered : Prop :=
  ∀ (s t : State) (k : BitVec 4) (even : Bool) (var : BitVec 2) (freq bw minsig : CF) (u : Pll),
    exec (.pllConfigure k even var freq bw minsig) s = .next t → t.response = [0x00000000#32] →
    t.pll[k.toNat]? = some u →
      finF u.freq0 ∧ finF u.minfreq ∧ finF u.maxfreq ∧ 0 < valF u.minfreq ∧
        valF u.minfreq ≤ valF u.freq0 ∧ valF u.freq0 ≤ valF u.maxfreq ∧ valF u.maxfreq ≤ 1 / 2 ∧
        (val64 minsig < 2 ^ 128 - 2 ^ 103 → finF u.minsignal ∧ 0 ≤ valF u.minsignal) ∧
        (2 ^ 128 - 2 ^ 103 ≤ val64 minsig → u.minsignal = 0x7F800000#32)

/-- R220 to R230: PLL.PROCESS of a finite sample on a configured unit whose new loop values are finite completes: the unit is
the one of R220, the results are the projection of the state at entry, and nothing else changes. -/
def Obligations.ProcessAdvancesLoop : Prop :=
  ∀ (s : State) (k : BitVec 4) (x : F) (u : Pll),
    s.pll[k.toNat]? = some u → u.cfgValid = true → finF x → (loopStep u x).finite → finF (loopStep u x).freq →
      let u' := processed s.cfg.pb u x
      let out := outWords s.cfg.phaseBits (projection u.variant u.ps u.pc u.phase)
      exec (.pllProcess k x) s = .next { s with
        pll := s.pll.set k.toNat u', response := pllStatus u' out.length :: out }

/-- R225, R279: PLL.PROCESS of a finite sample whose new loop state would not be finite is answered NumericOverflow, and
nothing changes but bit 7 of ERRFLAGS. -/
def Obligations.NonFiniteLoopRaisesNumericOverflow : Prop :=
  ∀ (s : State) (k : BitVec 4) (x : F) (u : Pll),
    s.pll[k.toNat]? = some u → u.cfgValid = true → finF x → ¬ (loopStep u x).finite →
      exec (.pllProcess k x) s =
        .next { s with errFlags := s.errFlags ||| 0x00000080#32, response := [0x00000007#32] }

/-- R232 to R234: PLL.LOCKED, PLL.PILOTLEVEL and PLL.GETOUT on a configured unit complete, carry the flags of the unit and
write nothing; the level is twice the amplitude estimate, and the output vector is the register `OUT`. -/
def Obligations.LoopReadsWriteNothing : Prop :=
  ∀ (s : State) (k : BitVec 4) (u : Pll), s.pll[k.toNat]? = some u → u.cfgValid = true →
    let out := outWords s.cfg.phaseBits u.out
    exec (.pllLocked k) s = .next { s with response := [pllStatus u 0] } ∧
    exec (.pllPilotlevel k) s = .next { s with response := [pllStatus u 1, fmul 0x40000000#32 u.pilot] } ∧
    exec (.pllGetout k) s = .next { s with response := pllStatus u out.length :: out }

/-- R235: PLL.EVDRAIN on a configured unit completes: it answers the number of queued records and the records, oldest first,
reports `EVOVF` as it was, empties the queue, clears `EV_OVF` and `BLOCK_POS`, and changes nothing else. -/
def Obligations.DrainEmptiesQueue : Prop :=
  ∀ (s : State) (k : BitVec 4) (u : Pll), s.pll[k.toNat]? = some u → u.cfgValid = true → PllOk s.cfg.pb u →
    exec (.pllEvdrain k) s = .next { s with
      pll := s.pll.set k.toNat { u with evq := [], evOvf := false, blockPos := 0#32 }
      response := pllStatus { u with evq := [] } (1 + 4 * u.evq.length) ::
        BitVec.ofNat 32 u.evq.length :: u.evq.flatMap recordWords }

/-- R227: from a lock counter of 0, fewer samples than the lock delay never bring a loop to Locked, whatever the samples. -/
def Obligations.LockNeedsLockDelaySamples : Prop :=
  ∀ (s : State) (k : BitVec 4) (u : Pll) (xs : List F),
    s.pll[k.toNat]? = some u → u.cfgValid = true → u.lockCnt = 0#32 → xs.length < u.lockDelay.toNat →
      ∃ t u', processAll k xs s = .next t ∧ t.pll[k.toNat]? = some u' ∧ u'.lockDelay = u.lockDelay ∧
        u'.lockCnt.toNat ≤ xs.length ∧ exec (.pllLocked k) t = .next { t with response := [pllStatus u' 0] } ∧
        u'.lockCnt ≠ u'.lockDelay

/-- R39 (of MINSIGNAL only that it is at least 0, log 13), R42 to R44, R48, R50, R51, R225: every step keeps
the invariant of every PLL unit. -/
def Obligations.StepKeepsPllInvariant : Prop :=
  ∀ s t : State, s.pllsOk → step s = .next t → t.pllsOk

/-- R120, R213: the oscillator pair `OSC0` of a frequency in [0, 1/2] is the cosine and the sine of the step angle to within
2^-24, and `OSC1` its derivative to within 2^-21 (half a unit in the last place is 2^-25 below 1 and 2^-22 below 8; the rest is
left to the free choice of log 10); `OSC0` is exact at a quarter turn and at half a turn. -/
def Obligations.OscillatorPairIsAccurate : Prop :=
  (∀ a : F, finF a → 0 ≤ valF a → valF a ≤ 1 / 2 →
    let w : ℝ := 2 * Real.pi * ((valF a : ℚ) : ℝ)
    |((valF (oscCos a) : ℚ) : ℝ) - Real.cos w| ≤ 1 / 2 ^ 24 ∧
    |((valF (oscSin a) : ℚ) : ℝ) - Real.sin w| ≤ 1 / 2 ^ 24 ∧
    |((valF (oscCosDerivative a) : ℚ) : ℝ) - -(2 * Real.pi * Real.sin w)| ≤ 1 / 2 ^ 21 ∧
    |((valF (oscSinDerivative a) : ℚ) : ℝ) - 2 * Real.pi * Real.cos w| ≤ 1 / 2 ^ 21) ∧
  oscCos 0x3E800000#32 = 0x00000000#32 ∧ oscSin 0x3E800000#32 = 0x3F800000#32 ∧
  oscCos 0x3F000000#32 = 0xBF800000#32 ∧ oscSin 0x3F000000#32 = 0x00000000#32

/-! ## The whole machine -/

/-- R20: a command addressed to a unit reads only that unit and the parameters, and writes only that unit (and ERRFLAGS): from
two states that agree there it answers the same response and leaves the same unit, and every other unit stays. -/
def Obligations.CommandSeesOnlyItsUnit : Prop :=
  ∀ (i : Instr) (x : Kind × Nat) (s s' t : State),
    target i = some x → s.cfg = s'.cfg → sameAt x s s' → exec i s = .next t →
      t.cfg = s.cfg ∧ t.input = s.input ∧ (∀ y, y ≠ x → sameAt y s t) ∧
      ∃ t', exec i s' = .next t' ∧ t'.response = t.response ∧ sameAt x t t'

/-- R78: two commands to different units commute: either order leaves the same state, and each is answered the same. -/
def Obligations.CommandsToDifferentUnitsCommute : Prop :=
  ∀ (i j : Instr) (x y : Kind × Nat) (s a b : State),
    target i = some x → target j = some y → x ≠ y → exec i s = .next a → exec j a = .next b →
      ∃ c d, exec j s = .next c ∧ exec i c = .next d ∧ c.response = b.response ∧
        d = { b with response := a.response }

/-- R22: a command that is neither a configuration command nor CORE.RESET leaves every configuration register of every unit
as it was. -/
def Obligations.OnlyConfigurationWritesConfiguration : Prop :=
  ∀ (i : Instr) (s t : State), ¬ isConfiguration i → i ≠ .coreReset → exec i s = .next t →
    t.rsmp.map rsmpConfigRegs = s.rsmp.map rsmpConfigRegs ∧ t.nco.map ncoConfigRegs = s.nco.map ncoConfigRegs ∧
      t.pll.map pllConfigRegs = s.pll.map pllConfigRegs

/-! ## Arithmetic -/

/-- R112: `rndF` rounds every rational to the nearest `F` value, ties to even, with the sign, the subnormals and the
overflow of the rule. -/
def Obligations.RoundingIsNearestEven : Prop :=
  ∀ (n : ℤ) (d : Nat), 0 < d → RoundsTo ((n : ℚ) / d) (rndF n d)

/-- R113 to R115. Finite operands: a sum, difference or product that is not 0 is the exact value rounded once, an exact zero
has the sign that the rule gives it, and `fneg` flips bit 31 of every pattern. A NaN operand and an invalid operation give the
canonical NaN, and infinities follow IEEE 754. The tests and comparisons are those of the encoding and of the values, the
infinities at the ends and nothing true of a NaN. -/
def Obligations.ArithmeticRoundsExactValueOnce : Prop := finiteArithmetic ∧ specialArithmetic ∧ comparisonsByValue
end

