-- ==== Sys2Proof/Laws/State.lean ====
section
/-!
SUPPORT. One lemma for each field of each update of the state and of the units, true by unfolding.
-/

namespace Sys2Proof.Machine

/-! ## State updates -/

@[simp] theorem State.respond_cfg (s : State) (fl : Flags) (results : List Word) : (s.respond fl results).cfg = s.cfg := rfl
@[simp] theorem State.respond_rsmp (s : State) (fl : Flags) (results : List Word) : (s.respond fl results).rsmp = s.rsmp := rfl
@[simp] theorem State.respond_nco (s : State) (fl : Flags) (results : List Word) : (s.respond fl results).nco = s.nco := rfl
@[simp] theorem State.respond_pll (s : State) (fl : Flags) (results : List Word) : (s.respond fl results).pll = s.pll := rfl
@[simp] theorem State.respond_errFlags (s : State) (fl : Flags) (results : List Word) : (s.respond fl results).errFlags = s.errFlags := rfl
@[simp] theorem State.respond_input (s : State) (fl : Flags) (results : List Word) : (s.respond fl results).input = s.input := rfl
@[simp] theorem State.respond_response (s : State) (fl : Flags) (results : List Word) : (s.respond fl results).response = statusWord 0 fl results.length :: results := rfl

@[simp] theorem State.raise_cfg (s : State) (e : ErrorCode) : (s.raise e).cfg = s.cfg := rfl
@[simp] theorem State.raise_rsmp (s : State) (e : ErrorCode) : (s.raise e).rsmp = s.rsmp := rfl
@[simp] theorem State.raise_nco (s : State) (e : ErrorCode) : (s.raise e).nco = s.nco := rfl
@[simp] theorem State.raise_pll (s : State) (e : ErrorCode) : (s.raise e).pll = s.pll := rfl
@[simp] theorem State.raise_errFlags (s : State) (e : ErrorCode) : (s.raise e).errFlags = s.errFlags ||| e.flag := rfl
@[simp] theorem State.raise_input (s : State) (e : ErrorCode) : (s.raise e).input = s.input := rfl
@[simp] theorem State.raise_response (s : State) (e : ErrorCode) : (s.raise e).response = [statusWord e.code Flags.none 0] := rfl

@[simp] theorem State.resetUnits_cfg (s : State) : s.resetUnits.cfg = s.cfg := rfl
@[simp] theorem State.resetUnits_rsmp (s : State) : s.resetUnits.rsmp = s.rsmp.map fun r => Rsmp.reset r.freeIx := rfl
@[simp] theorem State.resetUnits_nco (s : State) : s.resetUnits.nco = s.nco.map fun _ => Nco.reset := rfl
@[simp] theorem State.resetUnits_pll (s : State) : s.resetUnits.pll = s.pll.map fun p => Pll.reset p.freeIx := rfl
@[simp] theorem State.resetUnits_errFlags (s : State) : s.resetUnits.errFlags = 0#32 := rfl
@[simp] theorem State.resetUnits_input (s : State) : s.resetUnits.input = s.input := rfl
@[simp] theorem State.resetUnits_response (s : State) : s.resetUnits.response = s.response := rfl

@[simp] theorem State.sendFirst_cfg (s : State) (p : Packet) : (s.sendFirst p).cfg = s.cfg := rfl
@[simp] theorem State.sendFirst_rsmp (s : State) (p : Packet) : (s.sendFirst p).rsmp = s.rsmp := rfl
@[simp] theorem State.sendFirst_nco (s : State) (p : Packet) : (s.sendFirst p).nco = s.nco := rfl
@[simp] theorem State.sendFirst_pll (s : State) (p : Packet) : (s.sendFirst p).pll = s.pll := rfl
@[simp] theorem State.sendFirst_errFlags (s : State) (p : Packet) : (s.sendFirst p).errFlags = s.errFlags := rfl
@[simp] theorem State.sendFirst_input (s : State) (p : Packet) : (s.sendFirst p).input = .command p :: s.input := rfl
@[simp] theorem State.sendFirst_response (s : State) (p : Packet) : (s.sendFirst p).response = s.response := rfl

@[simp] theorem hardwareReset_cfg (s : State) : (hardwareReset s).cfg = s.resetUnits.cfg := rfl
@[simp] theorem hardwareReset_rsmp (s : State) : (hardwareReset s).rsmp = s.resetUnits.rsmp := rfl
@[simp] theorem hardwareReset_nco (s : State) : (hardwareReset s).nco = s.resetUnits.nco := rfl
@[simp] theorem hardwareReset_pll (s : State) : (hardwareReset s).pll = s.resetUnits.pll := rfl
@[simp] theorem hardwareReset_errFlags (s : State) : (hardwareReset s).errFlags = s.resetUnits.errFlags := rfl
@[simp] theorem hardwareReset_input (s : State) : (hardwareReset s).input = s.resetUnits.input := rfl
@[simp] theorem hardwareReset_response (s : State) : (hardwareReset s).response = [] := rfl

@[simp] theorem withFetchWord_eq (s : State) (nbits w : Nat) :
    s.withFetchWord nbits w = s.sendFirst (packetOfBits nbits w) := rfl

/-! ## Reset -/

@[simp] theorem State.initial_cfg (c : Config) : (State.initial c).cfg = c := rfl
@[simp] theorem State.initial_rsmp (c : Config) : (State.initial c).rsmp = List.replicate c.nRsmp (Rsmp.reset 0) := rfl
@[simp] theorem State.initial_nco (c : Config) : (State.initial c).nco = List.replicate c.nNco Nco.reset := rfl
@[simp] theorem State.initial_pll (c : Config) : (State.initial c).pll = List.replicate c.nPll (Pll.reset 0) := rfl
@[simp] theorem State.initial_errFlags (c : Config) : (State.initial c).errFlags = 0#32 := rfl
@[simp] theorem State.initial_input (c : Config) : (State.initial c).input = [] := rfl
@[simp] theorem State.initial_response (c : Config) : (State.initial c).response = [] := rfl

@[simp] theorem Rsmp.reset_cfgValid (n : Nat) : (Rsmp.reset n).cfgValid = false := rfl
@[simp] theorem Nco.reset_cfgValid : Nco.reset.cfgValid = false := rfl
@[simp] theorem Nco.reset_lfsr : Nco.reset.lfsr = Config.lfsrSeed := rfl
@[simp] theorem Pll.reset_cfgValid (n : Nat) : (Pll.reset n).cfgValid = false := rfl
@[simp] theorem Pll.reset_evq (n : Nat) : (Pll.reset n).evq = [] := rfl
@[simp] theorem Pll.reset_phase (n : Nat) : (Pll.reset n).phase = 0#64 := rfl

/-! ## Unit updates -/

@[simp] theorem rsmpCreated_cfgValid (u : Rsmp) (n t : Nat) (bank : List F) :
    (rsmpCreated u n t bank).cfgValid = true := rfl
@[simp] theorem rsmpCreated_phaseSteps (u : Rsmp) (n t : Nat) (bank : List F) :
    (rsmpCreated u n t bank).phaseSteps = BitVec.ofNat 16 n := rfl
@[simp] theorem rsmpCreated_ntaps (u : Rsmp) (n t : Nat) (bank : List F) :
    (rsmpCreated u n t bank).ntaps = BitVec.ofNat 16 t := rfl
@[simp] theorem rsmpCreated_wpos (u : Rsmp) (n t : Nat) (bank : List F) :
    (rsmpCreated u n t bank).wpos = 0#16 := rfl
@[simp] theorem rsmpCreated_taps (u : Rsmp) (n t : Nat) (bank : List F) :
    (rsmpCreated u n t bank).taps = bank := rfl
@[simp] theorem rsmpCreated_ring (u : Rsmp) (n t : Nat) (bank : List F) :
    (rsmpCreated u n t bank).ring = List.replicate t Cplx.zero := rfl
@[simp] theorem rsmpCreated_freeIx (u : Rsmp) (n t : Nat) (bank : List F) :
    (rsmpCreated u n t bank).freeIx = u.freeIx := rfl

@[simp] theorem pllConfigured0_cfgValid (u : Pll) (v : Variant) (even : Bool) (freq bandwidth minsignal : CF) :
    (pllConfigured0 u v even freq bandwidth minsignal).cfgValid = true := rfl
@[simp] theorem pllConfigured0_variant (u : Pll) (v : Variant) (even : Bool) (freq bandwidth minsignal : CF) :
    (pllConfigured0 u v even freq bandwidth minsignal).variant = v := rfl
@[simp] theorem pllConfigured0_even (u : Pll) (v : Variant) (even : Bool) (freq bandwidth minsignal : CF) :
    (pllConfigured0 u v even freq bandwidth minsignal).even = even := rfl
@[simp] theorem pllConfigured0_freq0 (u : Pll) (v : Variant) (even : Bool) (freq bandwidth minsignal : CF) :
    (pllConfigured0 u v even freq bandwidth minsignal).freq0 = rndCf (cfScaled freq) := rfl
@[simp] theorem pllConfigured0_minfreq (u : Pll) (v : Variant) (even : Bool) (freq bandwidth minsignal : CF) :
    (pllConfigured0 u v even freq bandwidth minsignal).minfreq = rndCf ((cfScaled freq) - (cfScaled bandwidth)) := rfl
@[simp] theorem pllConfigured0_maxfreq (u : Pll) (v : Variant) (even : Bool) (freq bandwidth minsignal : CF) :
    (pllConfigured0 u v even freq bandwidth minsignal).maxfreq = rndCf ((cfScaled freq) + (cfScaled bandwidth)) := rfl
@[simp] theorem pllConfigured0_minsignal (u : Pll) (v : Variant) (even : Bool) (freq bandwidth minsignal : CF) :
    (pllConfigured0 u v even freq bandwidth minsignal).minsignal = rndCf (cfScaled minsignal) := rfl
@[simp] theorem pllConfigured0_osc0c (u : Pll) (v : Variant) (even : Bool) (freq bandwidth minsignal : CF) :
    (pllConfigured0 u v even freq bandwidth minsignal).osc0c = oscCos (rndCf (cfScaled freq)) := rfl
@[simp] theorem pllConfigured0_osc0s (u : Pll) (v : Variant) (even : Bool) (freq bandwidth minsignal : CF) :
    (pllConfigured0 u v even freq bandwidth minsignal).osc0s = oscSin (rndCf (cfScaled freq)) := rfl
@[simp] theorem pllConfigured0_osc1c (u : Pll) (v : Variant) (even : Bool) (freq bandwidth minsignal : CF) :
    (pllConfigured0 u v even freq bandwidth minsignal).osc1c = oscCosDerivative (rndCf (cfScaled freq)) := rfl
@[simp] theorem pllConfigured0_osc1s (u : Pll) (v : Variant) (even : Bool) (freq bandwidth minsignal : CF) :
    (pllConfigured0 u v even freq bandwidth minsignal).osc1s = oscSinDerivative (rndCf (cfScaled freq)) := rfl
@[simp] theorem pllConfigured0_lfB0 (u : Pll) (v : Variant) (even : Bool) (freq bandwidth minsignal : CF) :
    (pllConfigured0 u v even freq bandwidth minsignal).lfB0 = loopB0 (cfScaled bandwidth) := rfl
@[simp] theorem pllConfigured0_lfB1 (u : Pll) (v : Variant) (even : Bool) (freq bandwidth minsignal : CF) :
    (pllConfigured0 u v even freq bandwidth minsignal).lfB1 = loopB1 (cfScaled bandwidth) := rfl
@[simp] theorem pllConfigured0_ampK (u : Pll) (v : Variant) (even : Bool) (freq bandwidth minsignal : CF) :
    (pllConfigured0 u v even freq bandwidth minsignal).ampK = ampCoefficient (cfScaled bandwidth) := rfl
@[simp] theorem pllConfigured0_lockDelay (u : Pll) (v : Variant) (even : Bool) (freq bandwidth minsignal : CF) :
    (pllConfigured0 u v even freq bandwidth minsignal).lockDelay = BitVec.ofNat 32 (lockDelayOf (cfScaled freq) (cfScaled bandwidth)) := rfl
@[simp] theorem pllConfigured0_phase (u : Pll) (v : Variant) (even : Bool) (freq bandwidth minsignal : CF) :
    (pllConfigured0 u v even freq bandwidth minsignal).phase = 0#64 := rfl
@[simp] theorem pllConfigured0_freq (u : Pll) (v : Variant) (even : Bool) (freq bandwidth minsignal : CF) :
    (pllConfigured0 u v even freq bandwidth minsignal).freq = rndCf (cfScaled freq) := rfl
@[simp] theorem pllConfigured0_ps (u : Pll) (v : Variant) (even : Bool) (freq bandwidth minsignal : CF) :
    (pllConfigured0 u v even freq bandwidth minsignal).ps = fZero := rfl
@[simp] theorem pllConfigured0_pc (u : Pll) (v : Variant) (even : Bool) (freq bandwidth minsignal : CF) :
    (pllConfigured0 u v even freq bandwidth minsignal).pc = fOne := rfl
@[simp] theorem pllConfigured0_lfX1 (u : Pll) (v : Variant) (even : Bool) (freq bandwidth minsignal : CF) :
    (pllConfigured0 u v even freq bandwidth minsignal).lfX1 = fZero := rfl
@[simp] theorem pllConfigured0_pilot (u : Pll) (v : Variant) (even : Bool) (freq bandwidth minsignal : CF) :
    (pllConfigured0 u v even freq bandwidth minsignal).pilot = fZero := rfl
@[simp] theorem pllConfigured0_lockCnt (u : Pll) (v : Variant) (even : Bool) (freq bandwidth minsignal : CF) :
    (pllConfigured0 u v even freq bandwidth minsignal).lockCnt = 0#32 := rfl
@[simp] theorem pllConfigured0_periodIdx (u : Pll) (v : Variant) (even : Bool) (freq bandwidth minsignal : CF) :
    (pllConfigured0 u v even freq bandwidth minsignal).periodIdx = 0#32 := rfl
@[simp] theorem pllConfigured0_sampleCnt (u : Pll) (v : Variant) (even : Bool) (freq bandwidth minsignal : CF) :
    (pllConfigured0 u v even freq bandwidth minsignal).sampleCnt = 0#64 := rfl
@[simp] theorem pllConfigured0_blockPos (u : Pll) (v : Variant) (even : Bool) (freq bandwidth minsignal : CF) :
    (pllConfigured0 u v even freq bandwidth minsignal).blockPos = 0#32 := rfl
@[simp] theorem pllConfigured0_out (u : Pll) (v : Variant) (even : Bool) (freq bandwidth minsignal : CF) :
    (pllConfigured0 u v even freq bandwidth minsignal).out = pllProject v fZero fOne 0#64 := rfl
@[simp] theorem pllConfigured0_evq (u : Pll) (v : Variant) (even : Bool) (freq bandwidth minsignal : CF) :
    (pllConfigured0 u v even freq bandwidth minsignal).evq = [] := rfl
@[simp] theorem pllConfigured0_evOvf (u : Pll) (v : Variant) (even : Bool) (freq bandwidth minsignal : CF) :
    (pllConfigured0 u v even freq bandwidth minsignal).evOvf = false := rfl
@[simp] theorem pllConfigured0_freeIx (u : Pll) (v : Variant) (even : Bool) (freq bandwidth minsignal : CF) :
    (pllConfigured0 u v even freq bandwidth minsignal).freeIx = u.freeIx := rfl

@[simp] theorem pllDrained_cfgValid (u : Pll) :
    (pllDrained u).cfgValid = u.cfgValid := rfl
@[simp] theorem pllDrained_variant (u : Pll) :
    (pllDrained u).variant = u.variant := rfl
@[simp] theorem pllDrained_even (u : Pll) :
    (pllDrained u).even = u.even := rfl
@[simp] theorem pllDrained_freq0 (u : Pll) :
    (pllDrained u).freq0 = u.freq0 := rfl
@[simp] theorem pllDrained_minfreq (u : Pll) :
    (pllDrained u).minfreq = u.minfreq := rfl
@[simp] theorem pllDrained_maxfreq (u : Pll) :
    (pllDrained u).maxfreq = u.maxfreq := rfl
@[simp] theorem pllDrained_minsignal (u : Pll) :
    (pllDrained u).minsignal = u.minsignal := rfl
@[simp] theorem pllDrained_osc0c (u : Pll) :
    (pllDrained u).osc0c = u.osc0c := rfl
@[simp] theorem pllDrained_osc0s (u : Pll) :
    (pllDrained u).osc0s = u.osc0s := rfl
@[simp] theorem pllDrained_osc1c (u : Pll) :
    (pllDrained u).osc1c = u.osc1c := rfl
@[simp] theorem pllDrained_osc1s (u : Pll) :
    (pllDrained u).osc1s = u.osc1s := rfl
@[simp] theorem pllDrained_lfB0 (u : Pll) :
    (pllDrained u).lfB0 = u.lfB0 := rfl
@[simp] theorem pllDrained_lfB1 (u : Pll) :
    (pllDrained u).lfB1 = u.lfB1 := rfl
@[simp] theorem pllDrained_ampK (u : Pll) :
    (pllDrained u).ampK = u.ampK := rfl
@[simp] theorem pllDrained_lockDelay (u : Pll) :
    (pllDrained u).lockDelay = u.lockDelay := rfl
@[simp] theorem pllDrained_phase (u : Pll) :
    (pllDrained u).phase = u.phase := rfl
@[simp] theorem pllDrained_freq (u : Pll) :
    (pllDrained u).freq = u.freq := rfl
@[simp] theorem pllDrained_ps (u : Pll) :
    (pllDrained u).ps = u.ps := rfl
@[simp] theorem pllDrained_pc (u : Pll) :
    (pllDrained u).pc = u.pc := rfl
@[simp] theorem pllDrained_lfX1 (u : Pll) :
    (pllDrained u).lfX1 = u.lfX1 := rfl
@[simp] theorem pllDrained_pilot (u : Pll) :
    (pllDrained u).pilot = u.pilot := rfl
@[simp] theorem pllDrained_lockCnt (u : Pll) :
    (pllDrained u).lockCnt = u.lockCnt := rfl
@[simp] theorem pllDrained_periodIdx (u : Pll) :
    (pllDrained u).periodIdx = u.periodIdx := rfl
@[simp] theorem pllDrained_sampleCnt (u : Pll) :
    (pllDrained u).sampleCnt = u.sampleCnt := rfl
@[simp] theorem pllDrained_blockPos (u : Pll) :
    (pllDrained u).blockPos = 0#32 := rfl
@[simp] theorem pllDrained_out (u : Pll) :
    (pllDrained u).out = u.out := rfl
@[simp] theorem pllDrained_evq (u : Pll) :
    (pllDrained u).evq = [] := rfl
@[simp] theorem pllDrained_evOvf (u : Pll) :
    (pllDrained u).evOvf = false := rfl
@[simp] theorem pllDrained_freeIx (u : Pll) :
    (pllDrained u).freeIx = u.freeIx := rfl

@[simp] theorem pllCommit_cfgValid (pb : Nat) (u : Pll) (pilot' pe freq' ps' pc' : F) :
    (pllCommit pb u pilot' pe freq' ps' pc').cfgValid = u.cfgValid := rfl
@[simp] theorem pllCommit_variant (pb : Nat) (u : Pll) (pilot' pe freq' ps' pc' : F) :
    (pllCommit pb u pilot' pe freq' ps' pc').variant = u.variant := rfl
@[simp] theorem pllCommit_even (pb : Nat) (u : Pll) (pilot' pe freq' ps' pc' : F) :
    (pllCommit pb u pilot' pe freq' ps' pc').even = u.even := rfl
@[simp] theorem pllCommit_freq0 (pb : Nat) (u : Pll) (pilot' pe freq' ps' pc' : F) :
    (pllCommit pb u pilot' pe freq' ps' pc').freq0 = u.freq0 := rfl
@[simp] theorem pllCommit_minfreq (pb : Nat) (u : Pll) (pilot' pe freq' ps' pc' : F) :
    (pllCommit pb u pilot' pe freq' ps' pc').minfreq = u.minfreq := rfl
@[simp] theorem pllCommit_maxfreq (pb : Nat) (u : Pll) (pilot' pe freq' ps' pc' : F) :
    (pllCommit pb u pilot' pe freq' ps' pc').maxfreq = u.maxfreq := rfl
@[simp] theorem pllCommit_minsignal (pb : Nat) (u : Pll) (pilot' pe freq' ps' pc' : F) :
    (pllCommit pb u pilot' pe freq' ps' pc').minsignal = u.minsignal := rfl
@[simp] theorem pllCommit_osc0c (pb : Nat) (u : Pll) (pilot' pe freq' ps' pc' : F) :
    (pllCommit pb u pilot' pe freq' ps' pc').osc0c = u.osc0c := rfl
@[simp] theorem pllCommit_osc0s (pb : Nat) (u : Pll) (pilot' pe freq' ps' pc' : F) :
    (pllCommit pb u pilot' pe freq' ps' pc').osc0s = u.osc0s := rfl
@[simp] theorem pllCommit_osc1c (pb : Nat) (u : Pll) (pilot' pe freq' ps' pc' : F) :
    (pllCommit pb u pilot' pe freq' ps' pc').osc1c = u.osc1c := rfl
@[simp] theorem pllCommit_osc1s (pb : Nat) (u : Pll) (pilot' pe freq' ps' pc' : F) :
    (pllCommit pb u pilot' pe freq' ps' pc').osc1s = u.osc1s := rfl
@[simp] theorem pllCommit_lfB0 (pb : Nat) (u : Pll) (pilot' pe freq' ps' pc' : F) :
    (pllCommit pb u pilot' pe freq' ps' pc').lfB0 = u.lfB0 := rfl
@[simp] theorem pllCommit_lfB1 (pb : Nat) (u : Pll) (pilot' pe freq' ps' pc' : F) :
    (pllCommit pb u pilot' pe freq' ps' pc').lfB1 = u.lfB1 := rfl
@[simp] theorem pllCommit_ampK (pb : Nat) (u : Pll) (pilot' pe freq' ps' pc' : F) :
    (pllCommit pb u pilot' pe freq' ps' pc').ampK = u.ampK := rfl
@[simp] theorem pllCommit_lockDelay (pb : Nat) (u : Pll) (pilot' pe freq' ps' pc' : F) :
    (pllCommit pb u pilot' pe freq' ps' pc').lockDelay = u.lockDelay := rfl
@[simp] theorem pllCommit_phase (pb : Nat) (u : Pll) (pilot' pe freq' ps' pc' : F) :
    (pllCommit pb u pilot' pe freq' ps' pc').phase = phaseOfInt pb (pllPhaseSum pb u freq') := rfl
@[simp] theorem pllCommit_freq (pb : Nat) (u : Pll) (pilot' pe freq' ps' pc' : F) :
    (pllCommit pb u pilot' pe freq' ps' pc').freq = freq' := rfl
@[simp] theorem pllCommit_ps (pb : Nat) (u : Pll) (pilot' pe freq' ps' pc' : F) :
    (pllCommit pb u pilot' pe freq' ps' pc').ps = ps' := rfl
@[simp] theorem pllCommit_pc (pb : Nat) (u : Pll) (pilot' pe freq' ps' pc' : F) :
    (pllCommit pb u pilot' pe freq' ps' pc').pc = pc' := rfl
@[simp] theorem pllCommit_lfX1 (pb : Nat) (u : Pll) (pilot' pe freq' ps' pc' : F) :
    (pllCommit pb u pilot' pe freq' ps' pc').lfX1 = pe := rfl
@[simp] theorem pllCommit_pilot (pb : Nat) (u : Pll) (pilot' pe freq' ps' pc' : F) :
    (pllCommit pb u pilot' pe freq' ps' pc').pilot = pilot' := rfl
@[simp] theorem pllCommit_lockCnt (pb : Nat) (u : Pll) (pilot' pe freq' ps' pc' : F) :
    (pllCommit pb u pilot' pe freq' ps' pc').lockCnt = pllLockCount u pilot' := rfl
@[simp] theorem pllCommit_sampleCnt (pb : Nat) (u : Pll) (pilot' pe freq' ps' pc' : F) :
    (pllCommit pb u pilot' pe freq' ps' pc').sampleCnt = u.sampleCnt + 1#64 := rfl
@[simp] theorem pllCommit_blockPos (pb : Nat) (u : Pll) (pilot' pe freq' ps' pc' : F) :
    (pllCommit pb u pilot' pe freq' ps' pc').blockPos = u.blockPos + 1#32 := rfl
@[simp] theorem pllCommit_out (pb : Nat) (u : Pll) (pilot' pe freq' ps' pc' : F) :
    (pllCommit pb u pilot' pe freq' ps' pc').out = pllProject u.variant u.ps u.pc u.phase := rfl
@[simp] theorem pllCommit_freeIx (pb : Nat) (u : Pll) (pilot' pe freq' ps' pc' : F) :
    (pllCommit pb u pilot' pe freq' ps' pc').freeIx = u.freeIx := rfl

@[simp] theorem rsmpUnspecified_cfgValid (k : BitVec 4) (u : Rsmp) : (rsmpUnspecified k u).cfgValid = false := rfl
@[simp] theorem pllUnspecified_cfgValid (pb : Nat) (k : BitVec 4) (u : Pll) :
    (pllUnspecified pb k u).cfgValid = false := rfl

end Sys2Proof.Machine
end

