-- ==== Sys2Proof/Laws/Ops.lean ====
section
/-!
SUPPORT. What each shared operation can do, said once: element access, the selection of the addressed unit, the checks before a
command, the building blocks of the resampler, the advance of an NCO.
-/

namespace Sys2Proof.Machine

/-! ## Memory spaces -/

theorem memRead_isSome {α : Type} (m : Memory α) (a : Nat) : (memRead m a).isSome = decide (a < m.length) := by
  unfold memRead
  by_cases h : a < m.length <;> simp [h]

theorem memRead_of_wf {α : Type} {m : Memory α} {n a : Nat} (h : m.wf n = true) (ha : a < n) :
    ∃ v, memRead m a = some v ∧ v ∈ m := by
  simp only [Memory.wf, beq_iff_eq] at h
  exact ⟨m[a]'(by omega), by simp [memRead, h, ha], List.getElem_mem _⟩

theorem memWrite_eq_some {α : Type} {m m' : Memory α} {a : Nat} {v : α} (h : memWrite m a v = some m') :
    a < m.length ∧ m' = m.set a v := by
  unfold memWrite at h
  split at h
  · exact ⟨‹_›, (Option.some.inj h).symm⟩
  · cases h

theorem memWrite_of_lt {α : Type} {m : Memory α} {a : Nat} (v : α) (h : a < m.length) :
    memWrite m a v = some (m.set a v) := by
  simp [memWrite, h]

/-- A write keeps the canonical form of a space. -/
theorem memWrite_wf {α : Type} {m m' : Memory α} {a n : Nat} {v : α} (hw : m.wf n = true)
    (h : memWrite m a v = some m') : m'.wf n = true := by
  obtain ⟨-, rfl⟩ := memWrite_eq_some h
  simpa [Memory.wf] using hw

theorem memRead_memWrite_same {α : Type} {m m' : Memory α} {a : Nat} {v : α} (h : memWrite m a v = some m') :
    memRead m' a = some v := by
  obtain ⟨ha, rfl⟩ := memWrite_eq_some h
  simp [memRead, ha]

theorem memRead_memWrite_other {α : Type} {m m' : Memory α} {a b : Nat} {v : α} (h : memWrite m a v = some m')
    (hb : b ≠ a) : memRead m' b = memRead m b := by
  obtain ⟨-, rfl⟩ := memWrite_eq_some h
  simp [memRead, List.getElem?_set_ne (Ne.symm hb)]

/-- Appending an event to a queue below its capacity keeps the bound of R51. -/
theorem pllPushEvent_length_le (u : Pll) (h : u.evq.length ≤ Config.evqDepth) :
    (pllPushEvent u).1.length ≤ Config.evqDepth := by
  unfold pllPushEvent
  split
  · split
    · simp; omega
    · exact h
  · exact h

/-- The memory spaces of the machine after reset are in canonical form. -/
theorem reset_memoryWf : State.reset.memoryWf = true := by decide

/-! ## The addressed unit -/

/-- What a command of an RSMP unit can do: BadInstance, a completed command, an error without a write, or a failed create. -/
theorem onRsmp_next {k : BitVec 4} {s t : State} {f : Rsmp → Answer Rsmp} (h : onRsmp k s f = .next t) :
    (s.rsmp[k.toNat]? = none ∧ t = s.raise .badInstance) ∨
    ∃ u, s.rsmp[k.toNat]? = some u ∧
      ((∃ u' fl ws, f u = .done u' fl ws ∧ t = { s with rsmp := s.rsmp.set k.toNat u' }.respond fl ws) ∨
       (∃ e, f u = .error e ∧ t = s.raise e) ∨
       (∃ u', f u = .invalid u' ∧
          t = { s with rsmp := s.rsmp.set k.toNat u' }.raise .invalidConfiguration)) := by
  unfold onRsmp at h
  split at h
  · rename_i hk
    cases h
    exact .inl ⟨hk, rfl⟩
  · rename_i u hk
    refine .inr ⟨u, hk, ?_⟩
    split at h <;> cases h
    · exact .inl ⟨_, _, _, ‹_›, rfl⟩
    · exact .inr (.inl ⟨_, ‹_›, rfl⟩)
    · exact .inr (.inr ⟨_, ‹_›, rfl⟩)

/-- What a command of an NCO unit can do. -/
theorem onNco_next {k : BitVec 4} {s t : State} {f : Nco → Answer Nco} (h : onNco k s f = .next t) :
    (s.nco[k.toNat]? = none ∧ t = s.raise .badInstance) ∨
    ∃ u, s.nco[k.toNat]? = some u ∧
      ((∃ u' fl ws, f u = .done u' fl ws ∧ t = { s with nco := s.nco.set k.toNat u' }.respond fl ws) ∨
       (∃ e, f u = .error e ∧ t = s.raise e) ∨
       (∃ u', f u = .invalid u' ∧
          t = { s with nco := s.nco.set k.toNat u' }.raise .invalidConfiguration)) := by
  unfold onNco at h
  split at h
  · rename_i hk
    cases h
    exact .inl ⟨hk, rfl⟩
  · rename_i u hk
    refine .inr ⟨u, hk, ?_⟩
    split at h <;> cases h
    · exact .inl ⟨_, _, _, ‹_›, rfl⟩
    · exact .inr (.inl ⟨_, ‹_›, rfl⟩)
    · exact .inr (.inr ⟨_, ‹_›, rfl⟩)

/-- What a command of a PLL unit can do. -/
theorem onPll_next {k : BitVec 4} {s t : State} {f : Pll → Answer Pll} (h : onPll k s f = .next t) :
    (s.pll[k.toNat]? = none ∧ t = s.raise .badInstance) ∨
    ∃ u, s.pll[k.toNat]? = some u ∧
      ((∃ u' fl ws, f u = .done u' fl ws ∧ t = { s with pll := s.pll.set k.toNat u' }.respond fl ws) ∨
       (∃ e, f u = .error e ∧ t = s.raise e) ∨
       (∃ u', f u = .invalid u' ∧
          t = { s with pll := s.pll.set k.toNat u' }.raise .invalidConfiguration)) := by
  unfold onPll at h
  split at h
  · rename_i hk
    cases h
    exact .inl ⟨hk, rfl⟩
  · rename_i u hk
    refine .inr ⟨u, hk, ?_⟩
    split at h <;> cases h
    · exact .inl ⟨_, _, _, ‹_›, rfl⟩
    · exact .inr (.inl ⟨_, ‹_›, rfl⟩)
    · exact .inr (.inr ⟨_, ‹_›, rfl⟩)

@[simp] theorem rsmpConfigured_true {u : Rsmp} (h : u.cfgValid = true) (f : Answer Rsmp) : rsmpConfigured u f = f := by
  simp [rsmpConfigured, h]

@[simp] theorem ncoConfigured_true {u : Nco} (h : u.cfgValid = true) (f : Answer Nco) : ncoConfigured u f = f := by
  simp [ncoConfigured, h]

@[simp] theorem pllConfigured_true {u : Pll} (h : u.cfgValid = true) (f : Answer Pll) : pllConfigured u f = f := by
  simp [pllConfigured, h]

/-! ## The resampler's building blocks -/

/-- What a consumption does: the write position moves and one ring element is written (R148). -/
theorem rsmpConsume_eq_some {u u' : Rsmp} {x : Cplx} (h : rsmpConsume u x = some u') :
    ∃ w : BitVec 16, w = (if u.wpos = 0#16 then u.ntaps - 1#16 else u.wpos - 1#16) ∧ w.toNat < u.ring.length ∧
      u' = { u with ring := u.ring.set w.toNat x, wpos := w } := by
  unfold rsmpConsume at h
  simp only at h
  split at h
  · rename_i r hr
    obtain ⟨hlt, rfl⟩ := memWrite_eq_some hr
    exact ⟨_, rfl, hlt, (Option.some.inj h).symm⟩
  · cases h

/-- The phase index of a data command lies below `PHASE_STEPS` (R150). -/
theorem phaseIndex_lt {u : Rsmp} {d : F} {p : Nat} (h : phaseIndex u d = some p) : p < u.phaseSteps.toNat := by
  unfold phaseIndex at h
  simp only at h
  split_ifs at h
  all_goals
    obtain rfl := Option.some.inj h
    omega

/-- An output command that completes leaves the unit as it was given and answers three words (R154 to R156). -/
theorem rsmpOutput_done {u u' : Rsmp} {d1 : F} {p : Nat} {c : Bool} {fl : Flags} {ws : List Word}
    (h : rsmpOutput u d1 p c = .done u' fl ws) :
    u' = u ∧ fl = Flags.rsmp true c ∧ ∃ y, convolve u p = some y ∧ ws = [d1, y.re, y.im] := by
  unfold rsmpOutput at h
  split at h
  · cases h
    exact ⟨rfl, rfl, _, ‹_›, rfl⟩
  · cases h

/-! ## The NCO's advance -/

/-- An advance never writes a configuration register (R22, R184, R185). -/
theorem ncoAdvance_config (pb : Nat) (u : Nco) :
    (ncoAdvance pb u).cfgValid = u.cfgValid ∧ (ncoAdvance pb u).inc = u.inc ∧
      (ncoAdvance pb u).ditherBits = u.ditherBits ∧ (ncoAdvance pb u).intPhase = u.intPhase := by
  unfold ncoAdvance
  simp only
  split <;> exact ⟨rfl, rfl, rfl, rfl⟩

/-- An advance adds the increment to the true phase, with or without dither (R184). -/
theorem ncoAdvance_phase (pb : Nat) (u : Nco) : (ncoAdvance pb u).phase = phaseAdd pb u.phase u.inc := by
  unfold ncoAdvance
  simp only
  split <;> rfl

theorem phaseAdd_lt (c : Config) (a b : DWord) : (phaseAdd c.pb a b).toNat < 2 ^ c.pb := by
  have h : (a.toNat + b.toNat) % 2 ^ c.pb < 2 ^ c.pb := Nat.mod_lt _ (by positivity)
  have h64 : c.pb ≤ 64 := by
    unfold Config.pb PhaseBits.bits
    split <;> omega
  have : (2 : Nat) ^ c.pb ≤ 2 ^ 64 := Nat.pow_le_pow_right (by omega) h64
  simp only [phaseAdd, BitVec.toNat_ofNat]
  exact lt_of_le_of_lt (Nat.mod_le _ _) h

/-! ## PLL.CONFIGURE -/

/-- What the check of PLL.CONFIGURE says of the operands it lets through (R212). -/
theorem configureValid_true {f b m : CF} (h : configureValid f b m = true) :
    cfUsable f = true ∧ cfUsable b = true ∧ cfUsable m = true ∧ 0 < cfScaled b ∧ 0 < cfScaled f - cfScaled b ∧
      2 * (cfScaled f + cfScaled b) < cfOne ∧ 0 ≤ cfScaled m ∧ lockDelayOf (cfScaled f) (cfScaled b) ≤ 2 ^ 32 - 1 := by
  simpa only [configureValid, Bool.and_eq_true, decide_eq_true_eq, and_assoc] using h

end Sys2Proof.Machine
end

