-- ==== Sys2Proof/Laws/PerInstr.lean ====
section
/-!
SUPPORT. Statements about every command as syntax, one lemma for each constructor: an encoded command has the payload word count
that its row asks for (R89, R92).
-/

namespace Sys2Proof.Laws

/-- The encoding of `i` has `NPAY` payload words. -/
def EncodedPayload.Statement (i : Instr) : Prop := (encode i).payload.length = i.opcode.npay

theorem EncodedPayload.coreNop : EncodedPayload.Statement .coreNop := rfl
theorem EncodedPayload.coreReset : EncodedPayload.Statement .coreReset := rfl
theorem EncodedPayload.coreId : EncodedPayload.Statement .coreId := rfl
theorem EncodedPayload.coreErr : EncodedPayload.Statement .coreErr := rfl
theorem EncodedPayload.rsmpCreate (k : BitVec 4) (n t : Word) (r c : CF) : EncodedPayload.Statement (.rsmpCreate k n t r c) := rfl
theorem EncodedPayload.rsmpDecimate (k : BitVec 4) (d a b : F) : EncodedPayload.Statement (.rsmpDecimate k d a b) := rfl
theorem EncodedPayload.rsmpInterpolate (k : BitVec 4) (d a b : F) : EncodedPayload.Statement (.rsmpInterpolate k d a b) := rfl
theorem EncodedPayload.rsmpResample (k : BitVec 4) (c : Bool) (d a b : F) : EncodedPayload.Statement (.rsmpResample k c d a b) := rfl
theorem EncodedPayload.rsmpRdtap (k : BitVec 4) (p : BitVec 16) (j : Word) : EncodedPayload.Statement (.rsmpRdtap k p j) := rfl
theorem EncodedPayload.ncoSetfreq (k : BitVec 4) (ip : Bool) (db : BitVec 6) (f r : CF) : EncodedPayload.Statement (.ncoSetfreq k ip db f r) := rfl
theorem EncodedPayload.ncoNextphase (k : BitVec 4) : EncodedPayload.Statement (.ncoNextphase k) := rfl
theorem EncodedPayload.ncoGet (k : BitVec 4) : EncodedPayload.Statement (.ncoGet k) := rfl
theorem EncodedPayload.ncoGetiq (k : BitVec 4) : EncodedPayload.Statement (.ncoGetiq k) := rfl
theorem EncodedPayload.ncoNext (k : BitVec 4) : EncodedPayload.Statement (.ncoNext k) := rfl
theorem EncodedPayload.ncoNextiq (k : BitVec 4) : EncodedPayload.Statement (.ncoNextiq k) := rfl
theorem EncodedPayload.pllConfigure (k : BitVec 4) (e : Bool) (v : BitVec 2) (f b m : CF) : EncodedPayload.Statement (.pllConfigure k e v f b m) := rfl
theorem EncodedPayload.pllProcess (k : BitVec 4) (x : F) : EncodedPayload.Statement (.pllProcess k x) := rfl
theorem EncodedPayload.pllLocked (k : BitVec 4) : EncodedPayload.Statement (.pllLocked k) := rfl
theorem EncodedPayload.pllPilotlevel (k : BitVec 4) : EncodedPayload.Statement (.pllPilotlevel k) := rfl
theorem EncodedPayload.pllGetout (k : BitVec 4) : EncodedPayload.Statement (.pllGetout k) := rfl
theorem EncodedPayload.pllEvdrain (k : BitVec 4) : EncodedPayload.Statement (.pllEvdrain k) := rfl

end Sys2Proof.Laws
end

