-- ==== Sys2Proof/Machine/Asm.lean ====
section
/-!
DEFINITION. The assembler syntax of R104 with the pseudo-instructions of R105, and the response notation of R12: text as lists of
characters. No step reads it; it ties the text form of the spec to the commands.
-/

namespace Sys2Proof.Machine

/-! ## Characters and pieces -/

/-- The text up to the first comment sign or the sign of an expected response (R104). -/
def asmCode : List Char → List Char
  | [] => []
  | ';' :: _ => []
  | '-' :: '>' :: _ => []
  | c :: cs => c :: asmCode cs

/-- Blanks between the parts of a line. -/
def asmSpace (c : Char) : Bool := c == ' ' || c == '\t'

/-- The pieces between the commas that stand outside brackets. -/
def asmSplit : (depth : Nat) → (piece : List Char) → List Char → List (List Char)
  | _, piece, [] => [piece.reverse]
  | depth, piece, c :: cs =>
    if c == ',' && depth == 0 then piece.reverse :: asmSplit 0 [] cs
    else if c == '(' then asmSplit (depth + 1) (c :: piece) cs
    else if c == ')' then asmSplit (depth - 1) (c :: piece) cs
    else asmSplit depth (c :: piece) cs

/-- A piece `name=value`. -/
def asmNamed (cs : List Char) : Option (List Char × List Char) :=
  match cs.dropWhile (· != '=') with
  | _ :: value => some (cs.takeWhile (· != '='), value)
  | [] => none

/-! ## Literals (R104) -/

def asmDigit (c : Char) : Option Nat :=
  if '0' ≤ c ∧ c ≤ '9' then some (c.toNat - '0'.toNat)
  else if 'a' ≤ c ∧ c ≤ 'f' then some (c.toNat - 'a'.toNat + 10)
  else if 'A' ≤ c ∧ c ≤ 'F' then some (c.toNat - 'A'.toNat + 10)
  else none

/-- A non-empty run of digits of a base. -/
def asmDigits (base : Nat) (cs : List Char) : Option Nat :=
  if cs.isEmpty then none
  else
    cs.foldl (fun acc c =>
      match acc, asmDigit c with
      | some n, some d => if d < base then some (n * base + d) else none
      | _, _ => none) (some 0)

/-- A natural number, decimal or `0x` hexadecimal. -/
def asmNat : List Char → Option Nat
  | '0' :: 'x' :: cs => asmDigits 16 cs
  | cs => asmDigits 10 cs

/-- An integer. -/
def asmInt : List Char → Option Int
  | '-' :: cs => (asmNat cs).map fun n => -(n : Int)
  | cs => (asmNat cs).map fun n => (n : Int)

/-- The word of a field of `width` bits for a literal that is one of its values; none for one that is too wide (log 18). -/
def asmField (width : Nat) (n : Option Nat) : Option (BitVec width) :=
  n.bind fun n => if n < 2 ^ width then some (BitVec.ofNat width n) else none

/-- The word of an `s32` operand (R89) for a literal in its range; none for one outside it (log 18). -/
def asmS32 (cs : List Char) : Option Word :=
  (asmInt cs).bind fun n => if -2 ^ 31 ≤ n ∧ n < 2 ^ 31 then some (BitVec.ofInt 32 n) else none

/-- The exponent of a decimal literal, after `e`. -/
def asmExponent : List Char → Option Int
  | [] => some 0
  | 'e' :: '+' :: cs => (asmDigits 10 cs).map fun n => (n : Int)
  | 'e' :: '-' :: cs => (asmDigits 10 cs).map fun n => -(n : Int)
  | 'e' :: cs => (asmDigits 10 cs).map fun n => (n : Int)
  | _ => none

/-- The magnitude of a decimal literal as a quotient of naturals. -/
def asmMagnitude (cs : List Char) : Option (Nat × Nat) :=
  let whole := cs.takeWhile (fun c => c != '.' && c != 'e')
  let rest := cs.dropWhile (fun c => c != '.' && c != 'e')
  let fraction := (rest.drop 1).takeWhile (· != 'e')
  let digits := if rest.head? == some '.' then whole ++ fraction else whole
  let places : Int := if rest.head? == some '.' then fraction.length else 0
  match asmDigits 10 digits, asmExponent (rest.dropWhile (· != 'e')) with
  | some n, some e =>
    let e10 := e - places
    some (if 0 ≤ e10 then (n * 10 ^ e10.toNat, 1) else (n, 10 ^ (-e10).toNat))
  | _, _ => none

/-- The bits 62:0 of the binary64 rounding of `n / d` in units of 2^-1074, to nearest even. -/
def rnd64Mag (n d : Nat) : Nat :=
  let k := Nat.log2 (n / d) - 52
  min (k * 2 ^ 52 + roundHalfEven n (d * 2 ^ k)) 0x7FF0000000000000

/-- A bit pattern of `width` bits, with all its hexadecimal digits (R104). -/
def asmPattern (width : Nat) (cs : List Char) : Option (BitVec width) :=
  if 4 * cs.length = width then (asmDigits 16 cs).map (BitVec.ofNat width) else none

/-- An `f32` literal: a bit pattern, or a decimal rounded to nearest even. -/
def asmF32 : List Char → Option F
  | 'f' :: ':' :: '0' :: 'x' :: cs => asmPattern 32 cs
  | '-' :: cs => (asmMagnitude cs).map fun x => BitVec.ofNat 32 (2 ^ 31 + rndMag (x.1 * 2 ^ 149) x.2)
  | cs => (asmMagnitude cs).map fun x => BitVec.ofNat 32 (rndMag (x.1 * 2 ^ 149) x.2)

/-- An `f64` literal. -/
def asmF64 : List Char → Option CF
  | 'd' :: ':' :: '0' :: 'x' :: cs => asmPattern 64 cs
  | '-' :: cs => (asmMagnitude cs).map fun x => BitVec.ofNat 64 (2 ^ 63 + rnd64Mag (x.1 * 2 ^ 1074) x.2)
  | cs => (asmMagnitude cs).map fun x => BitVec.ofNat 64 (rnd64Mag (x.1 * 2 ^ 1074) x.2)

/-- A complex sample `(re, im)`. -/
def asmComplex : List Char → Option (F × F)
  | '(' :: cs =>
    match asmSplit 0 [] cs.dropLast, cs.getLast? with
    | [re, im], some ')' =>
      match asmF32 re, asmF32 im with
      | some a, some b => some (a, b)
      | _, _ => none
    | _, _ => none
  | _ => none

/-- A flag operand takes 0 or 1. -/
def asmFlag : List Char → Option Bool
  | ['0'] => some false
  | ['1'] => some true
  | _ => none

/-- `variant=` takes a name (R104). -/
def asmVariant (cs : List Char) : Option (BitVec 2) :=
  if cs = "simple".toList then some 0#2
  else if cs = "stereo".toList then some 1#2
  else if cs = "rds".toList then some 2#2
  else none

/-! ## Commands -/

/-- The value of a named operand. -/
def asmValue (ops : List (List Char × List Char)) (name : String) : Option (List Char) :=
  (ops.find? fun x => x.1 == name.toList).map (·.2)

/-- The value of an operand that may be omitted (R104). -/
def asmOptional {α : Type} (ops : List (List Char × List Char)) (name : String) (dflt : α) (f : List Char → Option α) :
    Option α :=
  match asmValue ops name with
  | none => some dflt
  | some v => f v

/-- The operand names a command takes (R104). -/
def asmNames (mnemonic : List Char) : List String :=
  if mnemonic = "rsmp.create".toList then ["steps", "taps", "rate", "cutoff"]
  else if mnemonic = "rsmp.decimate".toList ∨ mnemonic = "rsmp.interpolate".toList ∨
    mnemonic = "rsmp.decimate.r".toList ∨ mnemonic = "rsmp.interpolate.r".toList then ["d", "x"]
  else if mnemonic = "rsmp.resample".toList ∨ mnemonic = "rsmp.resample.r".toList then ["d", "x", "consumed"]
  else if mnemonic = "rsmp.rdtap".toList then ["p", "i"]
  else if mnemonic = "nco.setfreq".toList then ["freq", "rate", "intphase", "dither"]
  else if mnemonic = "pll.configure".toList then ["freq", "bw", "minsig", "variant", "events"]
  else if mnemonic = "pll.process".toList then ["x"]
  else []

/-- A command of a unit with an index, from its mnemonic and operands (R104, R105). The spec does not say what a
literal too wide for its field stands for (`dither=64`, `p=65536`, `steps=2147483648`): such a line has no reading (DESIGN
CHOICE, log 18). -/
def asmUnitCommand (mnemonic : List Char) (k : BitVec 4) (ops : List (List Char × List Char)) : Option Instr := do
  let get (name : String) : Option (List Char) := asmValue ops name
  if mnemonic = "rsmp.create".toList then
    return .rsmpCreate k (← asmS32 (← get "steps")) (← asmS32 (← get "taps"))
      (← asmF64 (← get "rate")) (← asmF64 (← get "cutoff"))
  else if mnemonic = "rsmp.decimate".toList then
    let x ← asmComplex (← get "x")
    return .rsmpDecimate k (← asmF32 (← get "d")) x.1 x.2
  else if mnemonic = "rsmp.interpolate".toList then
    let x ← asmComplex (← get "x")
    return .rsmpInterpolate k (← asmF32 (← get "d")) x.1 x.2
  else if mnemonic = "rsmp.resample".toList then
    let x ← asmComplex (← get "x")
    return .rsmpResample k (← asmOptional ops "consumed" false asmFlag) (← asmF32 (← get "d")) x.1 x.2
  else if mnemonic = "rsmp.decimate.r".toList then
    return .rsmpDecimateReal k (← asmF32 (← get "d")) (← asmF32 (← get "x"))
  else if mnemonic = "rsmp.interpolate.r".toList then
    return .rsmpInterpolateReal k (← asmF32 (← get "d")) (← asmF32 (← get "x"))
  else if mnemonic = "rsmp.resample.r".toList then
    return .rsmpResampleReal k (← asmOptional ops "consumed" false asmFlag) (← asmF32 (← get "d")) (← asmF32 (← get "x"))
  else if mnemonic = "rsmp.rdtap".toList then
    return .rsmpRdtap k (← asmField 16 (asmNat (← get "p"))) (← asmField 32 (asmNat (← get "i")))
  else if mnemonic = "nco.setfreq".toList then
    return .ncoSetfreq k (← asmOptional ops "intphase" false asmFlag)
      (← asmOptional ops "dither" 0#6 fun v => asmField 6 (asmNat v)) (← asmF64 (← get "freq")) (← asmF64 (← get "rate"))
  else if mnemonic = "nco.nextphase".toList then return .ncoNextphase k
  else if mnemonic = "nco.get".toList then return .ncoGet k
  else if mnemonic = "nco.getiq".toList then return .ncoGetiq k
  else if mnemonic = "nco.next".toList then return .ncoNext k
  else if mnemonic = "nco.nextiq".toList then return .ncoNextiq k
  else if mnemonic = "pll.configure".toList then
    return .pllConfigure k (← asmOptional ops "events" false asmFlag) (← asmOptional ops "variant" 0#2 asmVariant)
      (← asmF64 (← get "freq")) (← asmF64 (← get "bw")) (← asmF64 (← get "minsig"))
  else if mnemonic = "pll.process".toList then return .pllProcess k (← asmF32 (← get "x"))
  else if mnemonic = "pll.locked".toList then return .pllLocked k
  else if mnemonic = "pll.pilotlevel".toList then return .pllPilotlevel k
  else if mnemonic = "pll.getout".toList then return .pllGetout k
  else if mnemonic = "pll.evdrain".toList then return .pllEvdrain k
  else none

/-- A CORE command or `nop`, which take no index and no operand (R104, R105). -/
def asmCoreCommand (mnemonic : List Char) : Option Instr :=
  if mnemonic = "core.nop".toList then some .coreNop
  else if mnemonic = "nop".toList then some .nop
  else if mnemonic = "core.reset".toList then some .coreReset
  else if mnemonic = "core.id".toList then some .coreId
  else if mnemonic = "core.err".toList then some .coreErr
  else none

/-- The command of one line of assembler text (R104). An operand given twice has no reading (DESIGN CHOICE, log 18). -/
def asmLine (line : List Char) : Option Instr := do
  let cs := (asmCode line).dropWhile asmSpace
  let mnemonic := cs.takeWhile (fun c => !asmSpace c)
  let rest := (cs.dropWhile (fun c => !asmSpace c)).filter (fun c => !asmSpace c)
  if rest.isEmpty then asmCoreCommand mnemonic
  else
    match asmSplit 0 [] rest with
    | [] => none
    | index :: pieces =>
      let k ← asmDigits 10 index
      let ops ← pieces.mapM asmNamed
      if k < 16 ∧ (ops.map (·.1)).Nodup ∧ ops.all (fun x => (asmNames mnemonic).any (fun n => n.toList == x.1)) then
        asmUnitCommand mnemonic (BitVec.ofNat 4 k) ops
      else none

/-! ## Responses (R12, R104) -/

/-- The name of an error code (R270). -/
def ErrorCode.name : ErrorCode → String
  | .invalidConfiguration => "InvalidConfiguration"
  | .illegalCommand => "IllegalCommand"
  | .badInstance => "BadInstance"
  | .notConfigured => "NotConfigured"
  | .badOperand => "BadOperand"
  | .phaseRange => "PhaseRange"
  | .numericOverflow => "NumericOverflow"
  | .badIndex => "BadIndex"

/-- The error of a `CODE` value (R270). -/
def errorOfCode : Nat → Option ErrorCode
  | 1 => some .invalidConfiguration
  | 2 => some .illegalCommand
  | 3 => some .badInstance
  | 4 => some .notConfigured
  | 5 => some .badOperand
  | 6 => some .phaseRange
  | 7 => some .numericOverflow
  | 8 => some .badIndex
  | _ => none

/-- A word as eight hexadecimal digits after `0x`, the letters in lower case (DESIGN CHOICE, log 18). -/
def wordText (w : Word) : String :=
  let ds := Nat.toDigits 16 w.toNat
  "0x" ++ String.ofList (List.replicate (8 - ds.length) '0' ++ ds)

/-- The response notation of R12 and R104: `-> ok`, the flags that are set and the results, or `-> err` and the name. The spec
writes `(result, ...)` and does not say how a result is written. The model writes each result word, whatever it stands for, as
`0x` and eight hexadecimal digits, `()` where there is no result, nothing for an empty response and a bare `-> err` for a code
without a name (DESIGN CHOICE, log 18). -/
def responseText : List Word → String
  | [] => ""
  | status :: results =>
    match (status.extractLsb' 0 8).toNat with
    | 0 =>
      let flag (i : Nat) (name : String) : String := if status.getLsbD i then " " ++ name else ""
      "-> ok" ++ flag 8 "valid" ++ flag 9 "consumed" ++ flag 10 "locked" ++ flag 11 "evpend" ++ flag 12 "evovf"
        ++ " (" ++ ", ".intercalate (results.map wordText) ++ ")"
    | n =>
      match errorOfCode n with
      | some e => "-> err " ++ e.name
      | none => "-> err"

end Sys2Proof.Machine
end

