-- ==== Sys2Proof/Tests/Slice0.lean ====
section
/-!
SUPPORT. The model's own tests: the well-formedness smoke test, words written out from the encoding tables, one-step vectors of
95_test_vectors.md, and a witness for every statement that has hypotheses.
-/

namespace Sys2Proof.Tests

open Sys2Proof.Machine Sys2Proof.Claims

set_option Elab.async false -- one theorem at a time: each waiting one would hold a thread

/-! ## Small states -/

/-- `RSMP[0]` before row 6 of program P3. -/
def rsmpDemo : Rsmp :=
  { cfgValid := true, phaseSteps := 2#16, ntaps := 2#16, wpos := 1#16,
    taps := [0x3D9E0505#32, 0x3F6C3F5F#32, 0x3F6C3F5F#32, 0x3D9E0505#32],
    ring := [⟨0#32, 0#32⟩, ⟨0x3F800000#32, 0x3F000000#32⟩], freeIx := 0 }

/-- `NCO[0]` after row 3 of program P1. -/
def ncoDemo : Nco :=
  { cfgValid := true, phase := 0#64, inc := 0x40000000#64, ditherBits := 0#6, intPhase := false, lfsr := 1#32,
    dphase := 0#64 }

/-- `NCO[1]` after row 1 of V-NCO-4, with eight dither bits. -/
def ncoDither : Nco := { ncoDemo with inc := 0x05555555#64, ditherBits := 8#6 }

/-- `PLL[0]` after row 2 of program P4. -/
def pllFresh : Pll :=
  { Pll.reset 0 with
    cfgValid := true, variant := .rds, even := true, freq0 := 0x3E800000#32, minfreq := 0x3E4CCCCD#32,
    maxfreq := 0x3E99999A#32, minsignal := 0x3D4CCCCD#32, osc0c := 0#32, osc0s := 0x3F800000#32,
    osc1c := 0xC0C90FDB#32, osc1s := 0#32, lfB0 := 0x3CFDF3B6#32, lfB1 := 0xBCF4C0AA#32, ampK := 0x3E4CCCCD#32,
    lockDelay := 400#32, freq := 0x3E800000#32, pc := 0x3F800000#32, out := .rds 0#32 0x3F800000#32 0#64 }

/-- `PLL[0]` after row 8 of program P4: the next sample carries the phase out of its 32 bits. -/
def pllDemo : Pll :=
  { pllFresh with
    phase := 0xC0000000#64, ps := 0xBF800000#32, pc := 0x80000000#32, lfX1 := 0x80000000#32, pilot := 0x3E23D70A#32,
    lockCnt := 2#32, sampleCnt := 3#64, blockPos := 3#32, out := .rds 0#32 0xBF800000#32 0x80000000#64 }

/-- `PLL[0]` of V-PLL-7, where the next large sample overflows. -/
def pllLoud : Pll :=
  { pllFresh with phase := 0x40000000#64, ps := 0x3F800000#32, pc := 0#32, pilot := 0xFEE38E36#32, minsignal := 0#32 }

/-- The machine after reset with unit 0 of each kind configured. -/
def demo : State :=
  { State.reset with
    rsmp := rsmpDemo :: List.replicate 3 (Rsmp.reset 0)
    nco := ncoDemo :: List.replicate 3 Nco.reset
    pll := pllDemo :: List.replicate 3 (Pll.reset 0) }

/-- The packet of a header word and the payload words after it. -/
def packet (ws : List Word) : Packet := ⟨ws.headD 0#32, ws.tail⟩

/-- The response to one command; empty when the step stops. -/
def answer (s : State) (ws : List Word) : List Word :=
  match step (s.sendFirst (packet ws)) with
  | .next t => t.response
  | _ => []

/-- The state after one command; the state itself when the step stops. -/
def after (s : State) (ws : List Word) : State :=
  match step (s.sendFirst (packet ws)) with
  | .next t => t
  | _ => s

/-- An outcome is a next state. -/
def isNext (o : Host.Outcome State Fault Refusal) : Bool :=
  match o with
  | .next _ => true
  | _ => false

/-- The next state of an outcome. -/
def nextOf (o : Host.Outcome State Fault Refusal) : State :=
  match o with
  | .next t => t
  | _ => State.reset

theorem eq_next_of_isNext (o : Host.Outcome State Fault Refusal) (h : isNext o = true) : o = .next (nextOf o) := by
  cases o with
  | next t => rfl
  | fault f => cases h
  | refused r => cases h

theorem rsmpDemo_ok : RsmpOk rsmpDemo where
  steps_pos := by decide
  steps_le := by decide
  ntaps_pos := by decide
  ntaps_le := by decide
  bank_le := by decide
  taps_wf := by decide
  ring_wf := by decide
  wpos_lt := by decide
  taps_finite := fun _ => List.all_eq_true.1 (by decide)

theorem rsmpReset_ok : RsmpOk (Rsmp.reset 0) := by
  constructor <;> exact fun h => absurd h (by decide)

theorem ncoDemo_ok : NcoOk 32 ncoDemo := by constructor <;> decide
theorem ncoReset_ok : NcoOk 32 Nco.reset := by constructor <;> decide
theorem pllDemo_ok : PllOk 32 pllDemo := by constructor <;> decide +kernel
theorem pllReset_ok : PllOk 32 (Pll.reset 0) := by constructor <;> decide

theorem demo_rsmpsOk : demo.rsmpsOk := by
  intro u hu
  rcases List.mem_cons.1 hu with rfl | h
  · exact rsmpDemo_ok
  · rw [List.eq_of_mem_replicate h]; exact rsmpReset_ok

theorem demo_ncosOk : demo.ncosOk := by
  intro u hu
  rcases List.mem_cons.1 hu with rfl | h
  · exact ncoDemo_ok
  · rw [List.eq_of_mem_replicate h]; exact ncoReset_ok

theorem demo_pllsOk : demo.pllsOk := by
  intro u hu
  rcases List.mem_cons.1 hu with rfl | h
  · exact pllDemo_ok
  · rw [List.eq_of_mem_replicate h]; exact pllReset_ok

theorem demo_countsOk : demo.CountsOk := by constructor <;> decide

/-! ## Well-formedness: the one check, refused and passed -/

theorem test_wf_reserved_variant_refused :
    (Instr.pllConfigure 0#4 false 3#2 0x3FD0000000000000#64 0x3FA999999999999A#64 0#64).wellFormed = false := by decide
theorem test_wf_rds_variant_passes :
    (Instr.pllConfigure 0#4 false 2#2 0x3FD0000000000000#64 0x3FA999999999999A#64 0#64).wellFormed = true := by decide
/-- R90 (e): the packet of the ill-formed term is refused by name. -/
theorem test_decode_refuses_reserved_variant :
    decode (packet [0x30010003#32, 0#32, 0x3FD00000#32, 0x9999999A#32, 0x3FA99999#32, 0#32, 0#32]) =
      .illegal .reservedVariant := by decide

/-! ## Decoding: words written out from R81, R84, R88, R89 -/

theorem test_decode_nop : decode (packet [0x00000000#32]) = .command .coreNop := by decide
theorem test_decode_reset : decode (packet [0x00010000#32]) = .command .coreReset := by decide
theorem test_decode_id : decode (packet [0x00020000#32]) = .command .coreId := by decide
theorem test_decode_err : decode (packet [0x00030000#32]) = .command .coreErr := by decide
/-- UNIT 1, INST 3, OP 01; the low word of each binary64 operand comes first. -/
theorem test_decode_create :
    decode (packet [0b00010011000000010000000000000000#32, 4#32, 5#32, 1#32, 0x40E77000#32, 2#32, 0x408F4000#32]) =
      .command (.rsmpCreate 3#4 4#32 5#32 0x40E7700000000001#64 0x408F400000000002#64) := by decide
theorem test_decode_decimate :
    decode (packet [0x1F020000#32, 0x3F800000#32, 1#32, 2#32]) = .command (.rsmpDecimate 15#4 0x3F800000#32 1#32 2#32) := by
  decide
theorem test_decode_interpolate :
    decode (packet [0x10030000#32, 0x3F800000#32, 1#32, 2#32]) =
      .command (.rsmpInterpolate 0#4 0x3F800000#32 1#32 2#32) := by decide
theorem test_decode_resample_cin :
    decode (packet [0x10040001#32, 0x3F800000#32, 1#32, 2#32]) =
      .command (.rsmpResample 0#4 true 0x3F800000#32 1#32 2#32) := by decide
theorem test_decode_rdtap :
    decode (packet [0x1205FFFE#32, 7#32]) = .command (.rsmpRdtap 2#4 0xFFFE#16 7#32) := by decide
/-- IP is bit 8 and DB bits 5:0 of `ARG`. -/
theorem test_decode_setfreq :
    decode (packet [0b00100001000000010000000100101010#32, 3#32, 0x408F4000#32, 4#32, 0x40E77000#32]) =
      .command (.ncoSetfreq 1#4 true 0x2A#6 0x408F400000000003#64 0x40E7700000000004#64) := by decide
theorem test_decode_nextphase : decode (packet [0x21020000#32]) = .command (.ncoNextphase 1#4) := by decide
theorem test_decode_get : decode (packet [0x21030000#32]) = .command (.ncoGet 1#4) := by decide
theorem test_decode_getiq : decode (packet [0x21040000#32]) = .command (.ncoGetiq 1#4) := by decide
theorem test_decode_next : decode (packet [0x21050000#32]) = .command (.ncoNext 1#4) := by decide
theorem test_decode_nextiq : decode (packet [0x21060000#32]) = .command (.ncoNextiq 1#4) := by decide
/-- EVEN is bit 8 and VAR bits 1:0 of `ARG`. -/
theorem test_decode_configure :
    decode (packet [0b00110010000000010000000100000010#32, 1#32, 2#32, 3#32, 4#32, 5#32, 6#32]) =
      .command (.pllConfigure 2#4 true 2#2 0x0000000200000001#64 0x0000000400000003#64 0x0000000600000005#64) := by decide
theorem test_decode_process : decode (packet [0x33020000#32, 9#32]) = .command (.pllProcess 3#4 9#32) := by decide
theorem test_decode_locked : decode (packet [0x33030000#32]) = .command (.pllLocked 3#4) := by decide
theorem test_decode_pilotlevel : decode (packet [0x33040000#32]) = .command (.pllPilotlevel 3#4) := by decide
theorem test_decode_getout : decode (packet [0x33050000#32]) = .command (.pllGetout 3#4) := by decide
theorem test_decode_evdrain : decode (packet [0x33060000#32]) = .command (.pllEvdrain 3#4) := by decide
/-- A row's word with its payload words all zero (log 2). -/
theorem test_table_word_setfreq :
    decodeTableWord 32 0x20010108 = some (.ncoSetfreq 0#4 true 8#6 0#64 0#64) := by decide
/-- The word becomes the next command and the step runs it: CORE.ID after reset (R262). -/
theorem test_fetch_word_runs :
    (nextOf (step (State.reset.withFetchWord 32 0x00020000))).response =
      [0x00020000#32, 0x53303531#32, 0x13330C20#32] := by decide
/-- R106: the assembler's text of a command. -/
theorem test_assemble_line :
    (asmLine "nco.setfreq 1, freq=1000.0, rate=48000.0, dither=8".toList).map encode =
      some (packet [0x21010008#32, 0#32, 0x408F4000#32, 0#32, 0x40E77000#32]) := by decide +kernel

/-- R104 (log 18): the widest dither count has a reading, the next one has none; the expected response is no part of the command. -/
theorem test_assemble_bounds :
    asmLine "nco.setfreq 1, freq=0.0, rate=1.0, dither=63".toList =
        some (.ncoSetfreq 1#4 false 63#6 0#64 0x3FF0000000000000#64) ∧
      asmLine "nco.setfreq 1, freq=0.0, rate=1.0, dither=64".toList = none ∧
      asmLine "nco.next 1 -> ok (0x00000000)".toList = some (.ncoNext 1#4) := by decide +kernel

/-! ## V-ENC-2: the order of the checks -/

theorem test_illegal_before_bad_unit : answer State.reset [0x14020000#32, 0x3F800000#32] = [2#32] := by decide
theorem test_bad_unit_before_invalid :
    answer State.reset [0x14010000#32, 0#32, 0#32, 0#32, 0#32, 0#32, 0#32] = [3#32] := by decide
theorem test_unconfigured_before_nan : answer State.reset [0x30020000#32, 0x7FC00000#32] = [4#32] := by decide

/-! ## CORE: program P5 -/

theorem test_nop : answer demo [0x00000000#32] = [0#32] := by decide
theorem test_reset_unconfigures : (after demo [0x00010000#32]).rsmp.all (fun u => !u.cfgValid) = true := by decide
theorem test_err_reads_flags : answer { demo with errFlags := 0x17E#32 } [0x00030000#32] = [0x00010000#32, 0x17E#32] := by
  decide

/-! ## RSMP: V-RSMP-1 to V-RSMP-4, P2, P3 -/

/-- V-RSMP-1, the hand-derived bank. -/
theorem test_create_bank :
    ((after demo [0x11010000#32, 2#32, 2#32, 0#32, 0x3FF00000#32, 0#32, 0x3FD00000#32]).rsmp.map Rsmp.taps)[1]? =
      some [0x3D9E0505#32, 0x3F6C3F5F#32, 0x3F6C3F5F#32, 0x3D9E0505#32] := by decide +kernel
/-- V-RSMP-2 row 6: the cut-off at half the rate. -/
theorem test_create_nyquist_invalid :
    answer demo [0x11010000#32, 2#32, 2#32, 0#32, 0x3FF00000#32, 0#32, 0x3FE00000#32] = [1#32] := by decide +kernel
/-- V-RSMP-4 row 9: `2^24 + 2` less 1 is a tie that goes to even. -/
theorem test_decimate_no_output :
    answer demo [0x10020000#32, 0x4B800001#32, 0#32, 0#32] = [0x00010200#32, 0x4B800000#32] := by decide +kernel
/-- P3 row 6 by RSMP.DECIMATE, which agrees there (R160). -/
theorem test_decimate_output :
    answer demo [0x10020000#32, 0x3F800000#32, 0x40000000#32, 0x3F800000#32] =
      [0x00030300#32, 0#32, 0x3F89E050#32, 0x3F09E050#32] := by decide +kernel
/-- P3 row 5: nothing is consumed below 1. -/
theorem test_interpolate_reads :
    answer demo [0x10030000#32, 0x3F000000#32, 0x40000000#32, 0x3F800000#32] =
      [0x00030100#32, 0x3F000000#32, 0x3F6C3F5F#32, 0x3EEC3F5F#32] := by decide +kernel
/-- V-RSMP-3 row 15. -/
theorem test_interpolate_phase_range : answer demo [0x10030000#32, 0x40000000#32, 0x40E00000#32, 0#32] = [6#32] := by
  decide +kernel
/-- P2 row 4: consumed already, and the distance asks for the next input. -/
theorem test_resample_waits :
    answer demo [0x10040001#32, 0x40000000#32, 0x3F800000#32, 0xBF800000#32] = [0x00010200#32, 0x40000000#32] := by
  decide +kernel
/-- The write position of P3 row 6: from 1 to 0. -/
theorem test_resample_consumes :
    ((after demo [0x10040000#32, 0x3F800000#32, 0x40000000#32, 0x3F800000#32]).rsmp.map Rsmp.wpos)[0]? = some 0#16 := by
  decide +kernel
theorem test_rdtap : answer demo [0x10050001#32, 0#32] = [0x00010000#32, 0x3F6C3F5F#32] := by decide +kernel
/-- V-RSMP-2 row 23: the index is unsigned. -/
theorem test_rdtap_bad_index : answer demo [0x10050000#32, 0xFFFFFFFF#32] = [8#32] := by decide

/-! ## NCO: V-NCO-1, V-NCO-4, P1 -/

/-- V-NCO-1: `-0.5` rounds away from zero, to -1. -/
theorem test_setfreq_half_away :
    ((after demo [0x20010000#32, 0#32, 0xBFF00000#32, 0#32, 0x42000000#32]).nco.map Nco.inc)[0]? = some 0xFFFFFFFF#64 := by
  decide +kernel
/-- V-NCO-4 row 11: 21 dither bits are too many. -/
theorem test_setfreq_dither_invalid :
    answer demo [0x20010015#32, 0#32, 0x408F4000#32, 0#32, 0x40E77000#32] = [1#32] := by decide +kernel
/-- V-NCO-4 row 2: the state after the first advance with dither. -/
theorem test_nextphase_dither :
    ((after { demo with nco := [ncoDither] } [0x20020000#32]).nco.map fun u => (u.phase, u.lfsr, u.dphase))[0]? =
      some (0x05555555#64, 0x80200003#32, 0x05555558#64) := by decide
/-- P1 row 4. -/
theorem test_getiq : answer demo [0x20040000#32] = [0x00020000#32, 0x3F800000#32, 0x80000000#32] := by decide +kernel
/-- V-NCO-2, with interpolation. -/
theorem test_get_interpolates :
    answer { demo with nco := [{ ncoDemo with dphase := 0x3FFFFFFF#64 }] } [0x20030000#32] =
      [0x00010000#32, 0x30D00000#32] := by decide +kernel
/-- V-NCO-4 row 2. -/
theorem test_next : answer { demo with nco := [ncoDither] } [0x20050000#32] = [0x00010000#32, 0x3F7DCF50#32] := by
  decide +kernel
/-- P1 row 5. -/
theorem test_nextiq : answer demo [0x20060000#32] = [0x00020000#32, 0#32, 0x3F800000#32] := by decide +kernel
/-- V-NCO-3. -/
theorem test_lfsr : lfsrStep (lfsrStep (lfsrStep 1#32)) = 0x60180001#32 := by decide

/-! ## PLL: P4, V-PLL-1, V-PLL-2, V-PLL-7 -/

/-- P4 row 2: every register of the configured unit. -/
theorem test_configure :
    ((after demo [0x30010102#32, 0#32, 0x3FD00000#32, 0x9999999A#32, 0x3FA99999#32, 0x9999999A#32, 0x3FA99999#32]).pll)[0]? =
      some pllFresh := by decide +kernel
/-- V-PLL-1 row 13: the lock delay would not fit 32 bits. -/
theorem test_configure_lock_delay_invalid :
    answer demo [0x32010000#32, 0#32, 0x3FD00000#32, 0xE493105E#32, 0x3E33C1C0#32, 0x9999999A#32, 0x3FA99999#32] =
      [1#32] := by decide +kernel
/-- P4 row 9: the answer is the state at entry, and the carry queues an event. -/
theorem test_process_wraps :
    answer demo [0x30020000#32, 0xBF800000#32] = [0x00030800#32, 0xBF800000#32, 0x80000000#32, 0xC0000000#32] := by
  decide +kernel
/-- P4 row 9: the registers after it. -/
theorem test_process_registers :
    ((after demo [0x30020000#32, 0xBF800000#32]).pll)[0]? =
      some { pllDemo with
        phase := 0#64, ps := 0x80000000#32, pc := 0x3F800000#32, lfX1 := 0#32, pilot := 0x3EA7EF9E#32, lockCnt := 3#32,
        periodIdx := 1#32, sampleCnt := 4#64, blockPos := 4#32, evq := [⟨0#32, 3#64, 3#32⟩],
        out := .rds 0xBF800000#32 0x80000000#32 0xC0000000#64 } := by decide +kernel
theorem test_locked : answer { demo with pll := [{ pllDemo with lockCnt := 400#32 }] } [0x30030000#32] = [0x400#32] := by
  decide
/-- P4 row 17. -/
theorem test_pilotlevel :
    answer { demo with pll := [{ pllDemo with pilot := 0x3EFDE708#32 }] } [0x30040000#32] =
      [0x00010000#32, 0x3F7DE708#32] := by decide +kernel
theorem test_getout :
    answer demo [0x30050000#32] = [0x00030000#32, 0#32, 0xBF800000#32, 0x80000000#32] := by decide
/-- P4 row 18, for one record; V-PLL-6: `EVOVF` is reported as it was. -/
theorem test_evdrain :
    answer { demo with pll := [{ pllDemo with evq := [⟨1#32, 7#64, 7#32⟩], evOvf := true }] } [0x30060000#32] =
      [0x00051000#32, 1#32, 1#32, 7#32, 0#32, 7#32] := by decide

/-! ## Constants -/

/-- The sum `1/x - 1/(3 x^3) + ...` in units of 2^-320: `pow` is `2^320 / x^(2 k + 1)`. -/
def arctanUnits (x : Nat) : (fuel k : Nat) → (pow : Nat) → Int
  | 0, _, _ => 0
  | fuel + 1, k, pow => (pow / (2 * k + 1) : Nat) - arctanUnits x fuel (k + 1) (pow / x ^ 2)

/-- Machin's formula encloses π between the ends of `enclPi`; every rounding of the sum is below 2^16 units. -/
theorem test_pi_literal :
    let p := 16 * arctanUnits 5 72 0 (2 ^ 320 / 5) - 4 * arctanUnits 239 24 0 (2 ^ 320 / 239)
    enclPi.lo * 2 ^ 64 ≤ p - 2 ^ 16 ∧ p + 2 ^ 16 ≤ enclPi.hi * 2 ^ 64 := by decide +kernel

/-! ## Witnesses: each statement's hypotheses hold of something -/

theorem witness_DecodeOfEncodeIsCommand :
    (Instr.pllConfigure 15#4 true 2#2 0#64 0#64 0#64).wellFormed = true := by decide

theorem witness_EncodeOfDecodeIsPacket : decode ⟨0x1F05FFFF#32, [0#32]⟩ = .command (.rsmpRdtap 15#4 0xFFFF#16 0#32) := by
  decide

theorem witness_HeaderSelectsTableRow_disjoint :
    0x2101013F#32 &&& rowMask .ncoSetfreq = rowMatch .ncoSetfreq ∧
      0x2101013F#32 &&& rowMask .ncoSetfreq = rowMatch .ncoSetfreq := by decide

theorem witness_StepRunsDecodedCommand :
    (demo.sendFirst (packet [0x30030000#32])).input = .command (packet [0x30030000#32]) :: [] ∧
      decode (packet [0x30030000#32]) = .command (.pllLocked 0#4) := by decide

theorem witness_IllegalPacketRaises :
    (demo.sendFirst (packet [0x40000000#32])).input = .command (packet [0x40000000#32]) :: [] ∧
      decode (packet [0x40000000#32]) = .illegal .reservedUnit := by decide

theorem witness_IdlePortAndResetInput_idle : demo.input = [] := by decide

theorem witness_IdlePortAndResetInput_reset :
    { demo with input := [.hardwareReset] }.input = PortEvent.hardwareReset :: [] := by decide

theorem witness_StepNeverStops : (demo.sendFirst (packet [0x10050001#32, 1#32])).rsmpsOk := demo_rsmpsOk

/-- Both clauses; also the witness of StepKeepsCounts. -/
theorem witness_ErrFlagsSticky :
    let s := { demo with errFlags := 0x100#32 }.sendFirst (packet [0x10050002#32, 0#32])
    step s = .next (nextOf (step s)) ∧ s.input.head? ≠ some .hardwareReset ∧
      s.input.head? ≠ some (.command ⟨0x00010000#32, []⟩) ∧ s.errFlags &&& errReserved = 0#32 :=
  ⟨eq_next_of_isNext _ (by decide), by decide, by decide, by decide⟩

theorem witness_ResetMeetsInvariants : Config.standard.valid = true ∧ Config.valid ⟨.w64, 16, 1, 16⟩ = true := by decide

theorem witness_IdAnswersParameters : demo.cfg.valid = true := by decide

theorem witness_ErrorsArePrecise_index :
    let i := Instr.rsmpRdtap 0#4 2#16 0#32
    exec i demo = .next (nextOf (exec i demo)) ∧ (nextOf (exec i demo)).response = 8#32 :: [] ∧
      (8#32).toNat % 2 ^ 8 ≠ 0 := ⟨eq_next_of_isNext _ (by decide), by decide, by decide⟩

theorem witness_ErrorsArePrecise_invalid :
    let i := Instr.ncoSetfreq 0#4 false 0#6 0#64 0#64
    exec i demo = .next (nextOf (exec i demo)) ∧ (nextOf (exec i demo)).response = 1#32 :: [] ∧
      (1#32).toNat % 2 ^ 8 ≠ 0 := ⟨eq_next_of_isNext _ (by decide +kernel), by decide +kernel, by decide⟩

theorem witness_MissingUnitRaisesBadInstance :
    demo.CountsOk ∧ target (.ncoGet 4#4) = some (.nco, 4) ∧ unitCount demo.cfg .nco ≤ 4 :=
  ⟨demo_countsOk, by decide, by decide⟩

theorem witness_UnconfiguredUnitRaisesNotConfigured :
    target (.pllProcess 3#4 0x7FC00000#32) = some (.pll, 3) ∧ cfgValidAt (.pll, 3) demo = some false ∧
      ¬ isConfiguration (.pllProcess 3#4 0x7FC00000#32) := ⟨by decide, by decide, fun h => h⟩

theorem witness_UnusableOperandRaisesBadOperand_distance :
    cfgValidAt (.rsmp, (0#4).toNat) demo = some true ∧ fIsNaN 0x7F800001#32 = true ∧
      Instr.rsmpInterpolate 0#4 0x7F800001#32 0#32 0#32 ∈
        [Instr.rsmpDecimate 0#4 0x7F800001#32 0#32 0#32, .rsmpInterpolate 0#4 0x7F800001#32 0#32 0#32,
          .rsmpResample 0#4 true 0x7F800001#32 0#32 0#32] := by decide

theorem witness_UnusableOperandRaisesBadOperand_sample :
    cfgValidAt (.pll, (0#4).toNat) demo = some true ∧ ¬ finF 0x7F800000#32 := ⟨by decide, by unfold finF; decide⟩

/-- The configured unit that the statements about RSMP data commands and RSMP.RDTAP speak of. -/
theorem witness_rsmp_unit : demo.rsmp[(0#4).toNat]? = some rsmpDemo ∧ rsmpDemo.cfgValid = true ∧ RsmpOk rsmpDemo :=
  ⟨rfl, rfl, rsmpDemo_ok⟩

/-- Distances at the two sides of 2, for PhaseRangeExactlyFromTwo and InterpolateAlwaysAnswers; the first is also one of
DecimateConsumesAndAnswers, ResampleFollowsItsLoop and ModesAgreeFromOneToTwo. -/
theorem witness_distances :
    fIsNaN 0x3FFFFFFF#32 = false ∧ fge 0x3FFFFFFF#32 0x3F800000#32 = true ∧ fge 0x3FFFFFFF#32 0x40000000#32 = false ∧
      fIsNaN 0x40000000#32 = false ∧ fge 0x40000000#32 0x40000000#32 = true := by decide +kernel

theorem witness_ModesAgreeFromOneToTwo :
    demo.rsmpsOk ∧ fge 0x3F800000#32 0x3F800000#32 = true ∧ fge 0x3F800000#32 0x40000000#32 = false :=
  ⟨demo_rsmpsOk, by decide +kernel, by decide +kernel⟩

/-- Legal operands of the smallest bank. -/
theorem createLegal_one : createLegal 1#32 1#32 0x3FF0000000000000#64 0x3FD0000000000000#64 := by
  unfold createLegal fin64 val64
  decide +kernel

theorem designBank_one : designBank 1 1 0x3FF0000000000000#64 0x3FD0000000000000#64 = some [0x3F800000#32] := by
  decide +kernel

theorem witness_CreateBuildsBank :
    demo.rsmp[(1#4).toNat]? = some (Rsmp.reset 0) ∧ createLegal 1#32 1#32 0x3FF0000000000000#64 0x3FD0000000000000#64 ∧
      designBank (1#32).toNat (1#32).toNat 0x3FF0000000000000#64 0x3FD0000000000000#64 = some [0x3F800000#32] :=
  ⟨rfl, createLegal_one, designBank_one⟩

/-- A negative size, and a bank of one element too many rows. -/
theorem witness_CreateRejects :
    demo.rsmp[(0#4).toNat]? = some rsmpDemo ∧
      ¬ createLegal 0xFFFFFFFF#32 1#32 0x3FF0000000000000#64 0x3FD0000000000000#64 ∧
      ¬ createLegal 1025#32 1#32 0x3FF0000000000000#64 0x3FD0000000000000#64 := by
  refine ⟨rfl, ?_, ?_⟩ <;> (unfold createLegal fin64 val64; decide +kernel)

/-- Of BankIsCompleteAndFinite and BankIsMirrorSymmetric. -/
theorem witness_bank :
    designBank 2 2 0x3FF0000000000000#64 0x3FD0000000000000#64 =
      some [0x3D9E0505#32, 0x3F6C3F5F#32, 0x3F6C3F5F#32, 0x3D9E0505#32] ∧ 1 < 2 := by decide +kernel

theorem witness_BankFollowsPrototype :
    let n : Word := 1#32
    let rate : CF := 0x3FF0000000000000#64
    let cutoff : CF := 0x3FD0000000000000#64
    createLegal n n rate cutoff ∧ designBank n.toNat n.toNat rate cutoff = some [0x3F800000#32] ∧ 0 < n.toNat ∧
      [0x3F800000#32][0 * n.toNat + 0]? = some 0x3F800000#32 ∧
      2 * ((val64 cutoff : ℚ) : ℝ) / (n.toNat * ((val64 rate : ℚ) : ℝ)) / 2 ^ 100 ≤
        |phaseGain n.toNat n.toNat ((val64 rate : ℚ) : ℝ) ((val64 cutoff : ℚ) : ℝ) 0| := by
  have hr : val64 0x3FF0000000000000#64 = 1 := by unfold val64; decide +kernel
  have hc : val64 0x3FD0000000000000#64 = 1 / 4 := by unfold val64; decide +kernel
  refine ⟨createLegal_one, designBank_one, by decide, by decide, ?_⟩
  have hp := Real.pi_pos.ne'
  have hg : phaseGain 1 1 1 (((1 / 4 : ℚ)) : ℝ) 0 = 1 / 2 := by
    simp [phaseGain, prototypeOf]
    field_simp
    norm_num
  simp only [hr, hc]
  norm_num at hg ⊢
  rw [hg]
  norm_num

theorem witness_ConvolutionRunsThroughBothSegments :
    rsmpDemo.cfgValid = true ∧ RsmpOk rsmpDemo ∧ 1 < rsmpDemo.phaseSteps.toNat := ⟨rfl, rsmpDemo_ok, by decide⟩

/-- Both index clauses of RdtapReadsOrRaisesBadIndex, at their boundary. -/
theorem witness_RdtapReadsOrRaisesBadIndex :
    ((1#16).toNat < rsmpDemo.phaseSteps.toNat ∧ (1#32).toNat < rsmpDemo.ntaps.toNat) ∧
      rsmpDemo.phaseSteps.toNat ≤ (2#16).toNat ∧ rsmpDemo.ntaps.toNat ≤ (2#32).toNat := by decide

/-- Of the statements that every step keeps an invariant. -/
theorem witness_StepKeepsInvariants :
    let s := demo.sendFirst (packet [0x30020000#32, 0xBF800000#32])
    s.rsmpsOk ∧ s.ncosOk ∧ s.pllsOk ∧ step s = .next (nextOf (step s)) :=
  ⟨demo_rsmpsOk, demo_ncosOk, demo_pllsOk, eq_next_of_isNext _ (by decide +kernel)⟩

/-- Of SetfreqSetsIncrement, at the largest number of dither bits. -/
theorem witness_SetfreqSetsIncrement :
    demo.nco[(0#4).toNat]? = some ncoDemo ∧ fin64 0xC008000000000000#64 ∧ fin64 0x4030000000000000#64 ∧
      0 < val64 0x4030000000000000#64 ∧ (20#6).toNat ≤ demo.cfg.pb - 12 := by
  refine ⟨rfl, ?_⟩
  unfold fin64 val64
  decide +kernel

/-- The four clauses of SetfreqRejects. -/
theorem witness_SetfreqRejects :
    demo.nco[(0#4).toNat]? = some ncoDemo ∧ ¬ fin64 0x7FF0000000000000#64 ∧ val64 0x8000000000000000#64 ≤ 0 ∧
      demo.cfg.pb - 12 < (21#6).toNat := by
  refine ⟨rfl, ?_⟩
  unfold fin64 val64
  decide +kernel

/-- Of NextphaseAdvances, GetAnswersSampleOfPhase, NextIsNextphaseThenGet and, with four quarter turns,
WholeTurnsReturnPhase. -/
theorem witness_nco_unit :
    demo.nco[(0#4).toNat]? = some ncoDemo ∧ ncoDemo.cfgValid = true ∧ NcoOk demo.cfg.pb ncoDemo ∧
      ncoDemo.ditherBits = 0#6 ∧ 0 < 4 ∧ 4 * ncoDemo.inc.toNat % 2 ^ demo.cfg.pb = 0 :=
  ⟨rfl, rfl, ncoDemo_ok, rfl, by decide, by decide⟩

theorem witness_RealizedFrequencyIsNear :
    let o := exec (.ncoSetfreq 0#4 false 0#6 0x408F400000000000#64 0x40E7700000000000#64) demo
    o = .next (nextOf o) ∧ (nextOf o).nco[(0#4).toNat]? = some { ncoDemo with inc := 0x05555555#64 } :=
  ⟨eq_next_of_isNext _ (by decide +kernel), by decide +kernel⟩

/-- Legal operands of PLL.CONFIGURE: those of program P4. -/
theorem configureLegal_demo : configureLegal 0x3FD0000000000000#64 0x3FA999999999999A#64 0x3FA999999999999A#64 := by
  unfold configureLegal fin64 val64
  decide +kernel

/-- R112, R212, R214: the last `minsignal` below 2^128 - 2^103 gives the largest finite value, that one gives +Inf (log 13), and
both are valid. -/
theorem test_minsignal_bound :
    rndCf (cfScaled 0x47EFFFFFEFFFFFFF#64) = 0x7F7FFFFF#32 ∧ rndCf (cfScaled 0x47EFFFFFF0000000#64) = 0x7F800000#32 ∧
      configureValid 0x3FD0000000000000#64 0x3FA999999999999A#64 0x47EFFFFFEFFFFFFF#64 = true ∧
      configureValid 0x3FD0000000000000#64 0x3FA999999999999A#64 0x47EFFFFFF0000000#64 = true := by decide +kernel

/-- With the two values of `minsignal` between which its rounding becomes +Inf: the last below 2^128 - 2^103, and that. -/
theorem witness_ConfigureStartsLoop :
    demo.pll[(0#4).toNat]? = some pllDemo ∧
      (2#2, Variant.rds) ∈ [(0#2, Variant.simple), (1#2, .stereo), (2#2, .rds)] ∧
      configureLegal 0x3FD0000000000000#64 0x3FA999999999999A#64 0x3FA999999999999A#64 ∧
      (configureLegal 0x3FD0000000000000#64 0x3FA999999999999A#64 0x47EFFFFFEFFFFFFF#64 ∧
        val64 0x47EFFFFFEFFFFFFF#64 < 2 ^ 128 - 2 ^ 103) ∧
      configureLegal 0x3FD0000000000000#64 0x3FA999999999999A#64 0x47EFFFFFF0000000#64 ∧
        ¬ val64 0x47EFFFFFF0000000#64 < 2 ^ 128 - 2 ^ 103 := by
  refine ⟨rfl, by decide, configureLegal_demo, ?_⟩
  unfold configureLegal fin64 val64
  decide +kernel

/-- V-PLL-1 row 6, where the sum is exactly one half. -/
theorem witness_ConfigureRejects :
    demo.pll[(0#4).toNat]? = some pllDemo ∧ 0#2 ≠ 3#2 ∧
      ¬ configureLegal 0x3FDC000000000000#64 0x3FB0000000000000#64 0x3FA999999999999A#64 := by
  refine ⟨rfl, by decide, ?_⟩
  unfold configureLegal fin64 val64
  decide +kernel

theorem witness_FrequencyRegistersAreOrdered :
    let o := exec (.pllConfigure 0#4 true 2#2 0x3FD0000000000000#64 0x3FA999999999999A#64 0x3FA999999999999A#64) demo
    o = .next (nextOf o) ∧ (nextOf o).response = [0x00000000#32] ∧ (nextOf o).pll[(0#4).toNat]? = some pllFresh :=
  ⟨eq_next_of_isNext _ (by decide +kernel), by decide +kernel, by decide +kernel⟩

/-- The last `minsignal` below 2^128 - 2^103: the end of the first clause on MINSIGNAL. -/
theorem witness_FrequencyRegistersAreOrdered_finite :
    let o := exec (.pllConfigure 0#4 true 2#2 0x3FD0000000000000#64 0x3FA999999999999A#64 0x47EFFFFFEFFFFFFF#64) demo
    o = .next (nextOf o) ∧ (nextOf o).response = [0x00000000#32] ∧
      (nextOf o).pll[(0#4).toNat]? = some { pllFresh with minsignal := 0x7F7FFFFF#32 } ∧
      val64 0x47EFFFFFEFFFFFFF#64 < 2 ^ 128 - 2 ^ 103 := by
  refine ⟨eq_next_of_isNext _ (by decide +kernel), by decide +kernel, by decide +kernel, ?_⟩
  unfold val64
  decide +kernel

/-- A `minsignal` of 2^128 - 2^103: the start of the second clause on MINSIGNAL. -/
theorem witness_FrequencyRegistersAreOrdered_infinite :
    let o := exec (.pllConfigure 0#4 true 2#2 0x3FD0000000000000#64 0x3FA999999999999A#64 0x47EFFFFFF0000000#64) demo
    o = .next (nextOf o) ∧ (nextOf o).response = [0x00000000#32] ∧
      (nextOf o).pll[(0#4).toNat]? = some { pllFresh with minsignal := 0x7F800000#32 } ∧
      2 ^ 128 - 2 ^ 103 ≤ val64 0x47EFFFFFF0000000#64 := by
  refine ⟨eq_next_of_isNext _ (by decide +kernel), by decide +kernel, by decide +kernel, ?_⟩
  unfold val64
  decide +kernel

theorem witness_ProcessAdvancesLoop :
    demo.pll[(0#4).toNat]? = some pllDemo ∧ pllDemo.cfgValid = true ∧ finF 0xBF800000#32 ∧
      (loopStep pllDemo 0xBF800000#32).finite ∧ finF (loopStep pllDemo 0xBF800000#32).freq := by
  refine ⟨rfl, rfl, ?_⟩
  unfold Loop.finite finF
  decide +kernel

/-- V-PLL-7. -/
theorem witness_NonFiniteLoopRaisesNumericOverflow :
    { demo with pll := [pllLoud] }.pll[(0#4).toNat]? = some pllLoud ∧ pllLoud.cfgValid = true ∧ finF 0x7F7FFFFF#32 ∧
      ¬ (loopStep pllLoud 0x7F7FFFFF#32).finite := by
  refine ⟨rfl, rfl, ?_⟩
  unfold Loop.finite finF
  decide +kernel

/-- Of LoopReadsWriteNothing and DrainEmptiesQueue. -/
theorem witness_pll_unit :
    demo.pll[(0#4).toNat]? = some pllDemo ∧ pllDemo.cfgValid = true ∧ PllOk demo.cfg.pb pllDemo :=
  ⟨rfl, rfl, pllDemo_ok⟩

theorem witness_LockNeedsLockDelaySamples :
    { demo with pll := [pllFresh] }.pll[(0#4).toNat]? = some pllFresh ∧ pllFresh.cfgValid = true ∧
      pllFresh.lockCnt = 0#32 ∧ (List.replicate 399 (0x3F800000#32 : F)).length < pllFresh.lockDelay.toNat := by
  decide +kernel

theorem witness_CosineTableIsAccurate : 4095 < 4096 := by decide

/-- One half, the end of the range, is the bound that is met with equality. -/
theorem witness_OscillatorPairIsAccurate : finF 0x3F000000#32 ∧ 0 ≤ valF 0x3F000000#32 ∧ valF 0x3F000000#32 ≤ 1 / 2 := by
  unfold finF valF
  decide +kernel

theorem witness_CommandSeesOnlyItsUnit :
    let s' := { demo with nco := [], errFlags := 0x100#32 }
    target (.pllLocked 0#4) = some (.pll, 0) ∧ demo.cfg = s'.cfg ∧ sameAt (.pll, 0) demo s' ∧
      exec (.pllLocked 0#4) demo = .next (nextOf (exec (.pllLocked 0#4) demo)) :=
  ⟨by decide, by decide, rfl, eq_next_of_isNext _ (by decide)⟩

theorem witness_CommandsToDifferentUnitsCommute :
    let a := nextOf (exec (.ncoNext 0#4) demo)
    target (.ncoNext 0#4) = some (.nco, 0) ∧ target (.pllProcess 0#4 0#32) = some (.pll, 0) ∧
      (Kind.nco, 0) ≠ (Kind.pll, 0) ∧ exec (.ncoNext 0#4) demo = .next a ∧
      exec (.pllProcess 0#4 0#32) a = .next (nextOf (exec (.pllProcess 0#4 0#32) a)) :=
  ⟨by decide, by decide, by decide, eq_next_of_isNext _ (by decide +kernel), eq_next_of_isNext _ (by decide +kernel)⟩

theorem witness_OnlyConfigurationWritesConfiguration :
    ¬ isConfiguration (.pllEvdrain 0#4) ∧ Instr.pllEvdrain 0#4 ≠ .coreReset ∧
      exec (.pllEvdrain 0#4) demo = .next (nextOf (exec (.pllEvdrain 0#4) demo)) :=
  ⟨fun h => h, by decide, eq_next_of_isNext _ (by decide)⟩

theorem witness_RoundingIsNearestEven : 0 < 3 := by decide

/-- The operands of specialArithmetic: a NaN with the smallest fraction, an infinity beside the largest finite value. -/
theorem witness_ArithmeticRoundsExactValueOnce_special :
    nanF 0x7F800001#32 ∧ infF 0xFF800000#32 ∧ finF 0x7F7FFFFF#32 ∧ infF 0x7F800000#32 := by
  unfold nanF infF finF
  decide

/-- Finite operands of ArithmeticRoundsExactValueOnce whose sum and product are not 0, and whose difference is. -/
theorem witness_ArithmeticRoundsExactValueOnce :
    finF 0x3F800000#32 ∧ valF 0x3F800000#32 + valF 0x3F800000#32 ≠ 0 ∧ valF 0x3F800000#32 - valF 0x3F800000#32 = 0 ∧
      valF 0x3F800000#32 * valF 0x3F800000#32 ≠ 0 := by
  unfold finF valF
  decide +kernel

end Sys2Proof.Tests
end

section
/-!
PROOF. No step changes the parameters or the number of units (R7, R20): what each command is in terms of the operation on its
unit, what such an operation can do to the counts, and from both the statement for a step.
-/

namespace Sys2Proof.Proofs

open Sys2Proof.Machine Sys2Proof.Claims

/-! ## What a command is -/

/-- A command either addresses no unit, and then it is CORE.RESET or only sends a response, or it is an operation on the unit
that it names (R83, R88). -/
theorem exec_shape (i : Instr) (s : State) :
    (i = .coreReset ∧ exec i s = .next (s.resetUnits.respond Flags.none [])) ∨
    (target i = none ∧ ∃ ws, exec i s = .next (s.respond Flags.none ws)) ∨
    (∃ k f, target i = some (.rsmp, k.toNat) ∧ exec i s = onRsmp k s f) ∨
    (∃ k f, target i = some (.nco, k.toNat) ∧ exec i s = onNco k s f) ∨
    (∃ k f, target i = some (.pll, k.toNat) ∧ exec i s = onPll k s f) :=
  match i with
  | .coreReset => .inl ⟨rfl, rfl⟩
  | .coreNop | .coreId | .coreErr => .inr (.inl ⟨rfl, _, rfl⟩)
  | .rsmpCreate k .. | .rsmpDecimate k .. | .rsmpInterpolate k .. | .rsmpResample k .. | .rsmpRdtap k .. =>
    .inr (.inr (.inl ⟨k, _, rfl, rfl⟩))
  | .ncoSetfreq k .. | .ncoNextphase k | .ncoGet k | .ncoGetiq k | .ncoNext k | .ncoNextiq k =>
    .inr (.inr (.inr (.inl ⟨k, _, rfl, rfl⟩)))
  | .pllConfigure k .. | .pllProcess k _ | .pllLocked k | .pllPilotlevel k | .pllGetout k | .pllEvdrain k =>
    .inr (.inr (.inr (.inr ⟨k, _, rfl, rfl⟩)))

/-! ## The parameters and the counts -/

/-- The conclusion of `Obligations.StepKeepsCounts`: `t` has the parameters of `s` and as many units of each kind. -/
def SameCounts (s t : State) : Prop :=
  t.cfg = s.cfg ∧ t.rsmp.length = s.rsmp.length ∧ t.nco.length = s.nco.length ∧ t.pll.length = s.pll.length

theorem SameCounts.refl (s : State) : SameCounts s s := ⟨rfl, rfl, rfl, rfl⟩

theorem sameCounts_respond (s : State) (fl : Flags) (ws : List Word) : SameCounts s (s.respond fl ws) := .refl s

theorem sameCounts_raise (s : State) (e : ErrorCode) : SameCounts s (s.raise e) := .refl s

theorem sameCounts_resetUnits (s : State) : SameCounts s s.resetUnits := by simp [SameCounts]

theorem onRsmp_sameCounts {k : BitVec 4} {s t : State} {f : Rsmp → Answer Rsmp} (h : onRsmp k s f = .next t) :
    SameCounts s t := by
  obtain ⟨-, rfl⟩ | ⟨u, -, ⟨u', fl, ws, -, rfl⟩ | ⟨e, -, rfl⟩ | ⟨u', -, rfl⟩⟩ := onRsmp_next h
  case inl | inr.inr.inl => exact sameCounts_raise s _
  case inr.inl | inr.inr.inr => simp [SameCounts]

theorem onNco_sameCounts {k : BitVec 4} {s t : State} {f : Nco → Answer Nco} (h : onNco k s f = .next t) :
    SameCounts s t := by
  obtain ⟨-, rfl⟩ | ⟨u, -, ⟨u', fl, ws, -, rfl⟩ | ⟨e, -, rfl⟩ | ⟨u', -, rfl⟩⟩ := onNco_next h
  case inl | inr.inr.inl => exact sameCounts_raise s _
  case inr.inl | inr.inr.inr => simp [SameCounts]

theorem onPll_sameCounts {k : BitVec 4} {s t : State} {f : Pll → Answer Pll} (h : onPll k s f = .next t) :
    SameCounts s t := by
  obtain ⟨-, rfl⟩ | ⟨u, -, ⟨u', fl, ws, -, rfl⟩ | ⟨e, -, rfl⟩ | ⟨u', -, rfl⟩⟩ := onPll_next h
  case inl | inr.inr.inl => exact sameCounts_raise s _
  case inr.inl | inr.inr.inr => simp [SameCounts]

theorem exec_sameCounts {i : Instr} {s t : State} (h : exec i s = .next t) : SameCounts s t := by
  obtain ⟨-, hi⟩ | ⟨-, ws, hi⟩ | ⟨k, f, -, hi⟩ | ⟨k, f, -, hi⟩ | ⟨k, f, -, hi⟩ := exec_shape i s <;> rw [hi] at h
  · cases h
    exact sameCounts_resetUnits s
  · cases h
    exact sameCounts_respond s _ ws
  · exact onRsmp_sameCounts h
  · exact onNco_sameCounts h
  · exact onPll_sameCounts h

theorem runCommand_sameCounts {p : Packet} {s t : State} (h : runCommand p s = .next t) : SameCounts s t := by
  unfold runCommand at h
  split at h
  · exact exec_sameCounts h
  · cases h
    exact sameCounts_raise s _

/-! ## What a step is -/

/-- A step is idle, or takes the oldest event: a command to run, or the reset input (R70, R288, R300). -/
theorem step_next {s t : State} (h : step s = .next t) :
    (s.input = [] ∧ t = s) ∨
    (∃ p rest, s.input = .command p :: rest ∧ runCommand p { s with input := rest } = .next t) ∨
    (∃ rest, s.input = .hardwareReset :: rest ∧ t = hardwareReset { s with input := rest }) := by
  unfold step takeEvent at h
  split at h
  next hin =>
    cases h
    exact .inl ⟨hin, rfl⟩
  next p rest hin => exact .inr (.inl ⟨p, rest, hin, h⟩)
  next rest hin =>
    cases h
    exact .inr (.inr ⟨rest, hin, rfl⟩)

/-- Settles O10: taking an event off the port touches neither the parameters nor the units, and the command or the reset that
follows keeps the counts. -/
theorem stepKeepsCounts : Obligations.StepKeepsCounts := by
  unfold Obligations.StepKeepsCounts
  intro s t h
  change SameCounts s t
  obtain ⟨-, rfl⟩ | ⟨p, rest, -, hrun⟩ | ⟨rest, -, rfl⟩ := step_next h
  · exact .refl t
  · have hkept : SameCounts { s with input := rest } t := runCommand_sameCounts hrun
    exact hkept
  · exact sameCounts_resetUnits s

end Sys2Proof.Proofs
end

section
/-!
PROOF. The commands of the three kinds of unit as one operation: what each does to the unit it names, as an inductive relation
with one constructor for each command; what an operation on a unit can do; and from both what a command and a step can do to a
unit at any place, said once for the invariants, the configuration registers and the frame.
-/

namespace Sys2Proof.Proofs

open Sys2Proof.Machine Sys2Proof.Claims

/-! ## The units of a kind -/

/-- The register state of a unit of a kind. -/
abbrev UnitOf : Kind → Type
  | .rsmp => Rsmp
  | .nco => Nco
  | .pll => Pll

/-- The units of a kind in a state. -/
def units : (κ : Kind) → State → List (UnitOf κ)
  | .rsmp, s => s.rsmp
  | .nco, s => s.nco
  | .pll, s => s.pll

/-- The state with other units of one kind. -/
def withUnits : (κ : Kind) → State → List (UnitOf κ) → State
  | .rsmp, s, l => { s with rsmp := l }
  | .nco, s, l => { s with nco := l }
  | .pll, s, l => { s with pll := l }

/-- What a reset makes of a unit (R57). -/
def resetUnit : (κ : Kind) → UnitOf κ → UnitOf κ
  | .rsmp, u => Rsmp.reset u.freeIx
  | .nco, _ => Nco.reset
  | .pll, u => Pll.reset u.freeIx

/-- The operation on the unit `k` of a kind. -/
def onUnit : (κ : Kind) → BitVec 4 → State → (UnitOf κ → Answer (UnitOf κ)) → Host.Outcome State Fault Refusal
  | .rsmp, k, s, f => onRsmp k s f
  | .nco, k, s, f => onNco k s f
  | .pll, k, s, f => onPll k s f

@[simp] theorem units_withUnits (κ : Kind) (s : State) (l : List (UnitOf κ)) : units κ (withUnits κ s l) = l := by
  cases κ <;> rfl

theorem units_withUnits_of_ne {κ κ' : Kind} (h : κ' ≠ κ) (s : State) (l : List (UnitOf κ)) :
    units κ' (withUnits κ s l) = units κ' s := by
  revert h
  cases κ <;> cases κ' <;> simp [units, withUnits]

@[simp] theorem withUnits_cfg (κ : Kind) (s : State) (l : List (UnitOf κ)) : (withUnits κ s l).cfg = s.cfg := by
  cases κ <;> rfl

@[simp] theorem withUnits_input (κ : Kind) (s : State) (l : List (UnitOf κ)) : (withUnits κ s l).input = s.input := by
  cases κ <;> rfl

@[simp] theorem withUnits_errFlags (κ : Kind) (s : State) (l : List (UnitOf κ)) :
    (withUnits κ s l).errFlags = s.errFlags := by
  cases κ <;> rfl

@[simp] theorem units_withInput (κ : Kind) (s : State) (rest : List PortEvent) :
    units κ { s with input := rest } = units κ s := by
  cases κ <;> rfl

@[simp] theorem units_respond (κ : Kind) (s : State) (fl : Flags) (ws : List Word) :
    units κ (s.respond fl ws) = units κ s := by
  cases κ <;> rfl

@[simp] theorem units_raise (κ : Kind) (s : State) (e : ErrorCode) : units κ (s.raise e) = units κ s := by
  cases κ <;> rfl

@[simp] theorem units_resetUnits (κ : Kind) (s : State) : units κ s.resetUnits = (units κ s).map (resetUnit κ) := by
  cases κ <;> rfl

@[simp] theorem units_hardwareReset (κ : Kind) (s : State) :
    units κ (hardwareReset s) = (units κ s).map (resetUnit κ) := by
  cases κ <;> rfl

theorem sameAt_iff (κ : Kind) (n : Nat) (s t : State) : sameAt (κ, n) s t ↔ (units κ s)[n]? = (units κ t)[n]? := by
  cases κ <;> rfl

/-! ## The operation on the addressed unit -/

/-- What becomes of the machine when the unit `k` of a kind answers a command. -/
def settleAnswer (κ : Kind) (k : BitVec 4) (s : State) : Answer (UnitOf κ) → Host.Outcome State Fault Refusal
  | .done u fl ws => .next ((withUnits κ s ((units κ s).set k.toNat u)).respond fl ws)
  | .error e => .next (s.raise e)
  | .invalid u => .next ((withUnits κ s ((units κ s).set k.toNat u)).raise .invalidConfiguration)
  | .stop x => .fault x

theorem onUnit_of_none {κ : Kind} {k : BitVec 4} {s : State} (f : UnitOf κ → Answer (UnitOf κ))
    (hk : (units κ s)[k.toNat]? = none) : onUnit κ k s f = .next (s.raise .badInstance) := by
  cases κ <;> simp only [units] at hk <;> simp [onUnit, onRsmp, onNco, onPll, hk]

theorem onUnit_of_some {κ : Kind} {k : BitVec 4} {s : State} {u : UnitOf κ} (f : UnitOf κ → Answer (UnitOf κ))
    (hk : (units κ s)[k.toNat]? = some u) : onUnit κ k s f = settleAnswer κ k s (f u) := by
  cases κ <;> simp only [units] at hk <;> simp only [onUnit, onRsmp, onNco, onPll, hk] <;>
    generalize f u = a <;> cases a <;> rfl

/-- What an operation on a unit can do, for all three kinds: raise an error and write nothing, or leave the addressed unit in
the state of the answer, with a response or with InvalidConfiguration. -/
theorem onUnit_next {κ : Kind} {k : BitVec 4} {s t : State} {f : UnitOf κ → Answer (UnitOf κ)}
    (h : onUnit κ k s f = .next t) :
    (∃ e, t = s.raise e) ∨
    ∃ u u', (units κ s)[k.toNat]? = some u ∧
      ((∃ fl ws, f u = .done u' fl ws ∧ t = (withUnits κ s ((units κ s).set k.toNat u')).respond fl ws) ∨
       (f u = .invalid u' ∧ t = (withUnits κ s ((units κ s).set k.toNat u')).raise .invalidConfiguration)) := by
  cases hk : (units κ s)[k.toNat]? with
  | none =>
    rw [onUnit_of_none f hk] at h
    cases h
    exact .inl ⟨_, rfl⟩
  | some u =>
    rw [onUnit_of_some f hk] at h
    cases hf : f u with
    | done u' fl ws =>
      rw [hf] at h
      cases h
      exact .inr ⟨u, u', rfl, .inl ⟨fl, ws, hf, rfl⟩⟩
    | error e =>
      rw [hf] at h
      cases h
      exact .inl ⟨e, rfl⟩
    | invalid u' =>
      rw [hf] at h
      cases h
      exact .inr ⟨u, u', rfl, .inr ⟨hf, rfl⟩⟩
    | stop x =>
      rw [hf] at h
      cases h

/-! ## The commands of the units -/

/-- `UnitCommand c κ i k f`: under the parameters `c` the command `i` runs the operation `f` on unit `k` of kind `κ`. One
constructor for each command but those of CORE. -/
inductive UnitCommand (c : Config) : (κ : Kind) → Instr → BitVec 4 → (UnitOf κ → Answer (UnitOf κ)) → Prop
  | create (k : BitVec 4) (n t : Word) (rate cutoff : CF) :
      UnitCommand c .rsmp (.rsmpCreate k n t rate cutoff) k (rsmpCreateAnswer k n t rate cutoff)
  | decimate (k : BitVec 4) (d re im : F) :
      UnitCommand c .rsmp (.rsmpDecimate k d re im) k (rsmpDecimateAnswer d ⟨re, im⟩)
  | interpolate (k : BitVec 4) (d re im : F) :
      UnitCommand c .rsmp (.rsmpInterpolate k d re im) k (rsmpInterpolateAnswer d ⟨re, im⟩)
  | resample (k : BitVec 4) (cin : Bool) (d re im : F) :
      UnitCommand c .rsmp (.rsmpResample k cin d re im) k (rsmpResampleAnswer cin d ⟨re, im⟩)
  | rdtap (k : BitVec 4) (p : BitVec 16) (j : Word) :
      UnitCommand c .rsmp (.rsmpRdtap k p j) k (rsmpRdtapAnswer p j)
  | setfreq (k : BitVec 4) (ip : Bool) (db : BitVec 6) (freq rate : CF) :
      UnitCommand c .nco (.ncoSetfreq k ip db freq rate) k (ncoSetfreqAnswer c ip db freq rate)
  | nextphase (k : BitVec 4) :
      UnitCommand c .nco (.ncoNextphase k) k fun u => ncoConfigured u (.done (ncoAdvance c.pb u) Flags.none [])
  | get (k : BitVec 4) :
      UnitCommand c .nco (.ncoGet k) k fun u => ncoConfigured u (.done u Flags.none [ncoI c u])
  | getiq (k : BitVec 4) :
      UnitCommand c .nco (.ncoGetiq k) k fun u => ncoConfigured u (.done u Flags.none [ncoI c u, ncoQ c u])
  | next (k : BitVec 4) :
      UnitCommand c .nco (.ncoNext k) k fun u =>
        ncoConfigured u (.done (ncoAdvance c.pb u) Flags.none [ncoI c (ncoAdvance c.pb u)])
  | nextiq (k : BitVec 4) :
      UnitCommand c .nco (.ncoNextiq k) k fun u =>
        ncoConfigured u
          (.done (ncoAdvance c.pb u) Flags.none [ncoI c (ncoAdvance c.pb u), ncoQ c (ncoAdvance c.pb u)])
  | configure (k : BitVec 4) (even : Bool) (var : BitVec 2) (freq bw minsig : CF) :
      UnitCommand c .pll (.pllConfigure k even var freq bw minsig) k (pllConfigureAnswer c.pb k even var freq bw minsig)
  | process (k : BitVec 4) (x : F) :
      UnitCommand c .pll (.pllProcess k x) k fun u => pllConfigured u (pllProcessAnswer c x u)
  | locked (k : BitVec 4) :
      UnitCommand c .pll (.pllLocked k) k fun u => pllConfigured u (.done u (Flags.pll u) [])
  | pilotlevel (k : BitVec 4) :
      UnitCommand c .pll (.pllPilotlevel k) k fun u => pllConfigured u (.done u (Flags.pll u) [pllLevel u])
  | getout (k : BitVec 4) :
      UnitCommand c .pll (.pllGetout k) k fun u => pllConfigured u (.done u (Flags.pll u) (u.out.words c.phaseBits))
  | evdrain (k : BitVec 4) :
      UnitCommand c .pll (.pllEvdrain k) k fun u =>
        pllConfigured u (.done (pllDrained u) (Flags.pll { pllDrained u with evOvf := u.evOvf }) (pllDrainWords u))

/-- The relation says what the machine does. -/
theorem exec_of_unitCommand {κ : Kind} {i : Instr} {k : BitVec 4} {f : UnitOf κ → Answer (UnitOf κ)} {s : State}
    (h : UnitCommand s.cfg κ i k f) : exec i s = onUnit κ k s f := by
  cases h <;> rfl

/-- Every command that addresses a unit is in the relation. -/
theorem unitCommand_of_target {i : Instr} {x : Kind × Nat} (c : Config) (h : target i = some x) :
    ∃ κ k f, x = (κ, k.toNat) ∧ UnitCommand c κ i k f :=
  match i, h with
  | .rsmpCreate .., rfl => ⟨_, _, _, rfl, .create ..⟩
  | .rsmpDecimate .., rfl => ⟨_, _, _, rfl, .decimate ..⟩
  | .rsmpInterpolate .., rfl => ⟨_, _, _, rfl, .interpolate ..⟩
  | .rsmpResample .., rfl => ⟨_, _, _, rfl, .resample ..⟩
  | .rsmpRdtap .., rfl => ⟨_, _, _, rfl, .rdtap ..⟩
  | .ncoSetfreq .., rfl => ⟨_, _, _, rfl, .setfreq ..⟩
  | .ncoNextphase _, rfl => ⟨_, _, _, rfl, .nextphase _⟩
  | .ncoGet _, rfl => ⟨_, _, _, rfl, .get _⟩
  | .ncoGetiq _, rfl => ⟨_, _, _, rfl, .getiq _⟩
  | .ncoNext _, rfl => ⟨_, _, _, rfl, .next _⟩
  | .ncoNextiq _, rfl => ⟨_, _, _, rfl, .nextiq _⟩
  | .pllConfigure .., rfl => ⟨_, _, _, rfl, .configure ..⟩
  | .pllProcess .., rfl => ⟨_, _, _, rfl, .process ..⟩
  | .pllLocked _, rfl => ⟨_, _, _, rfl, .locked _⟩
  | .pllPilotlevel _, rfl => ⟨_, _, _, rfl, .pilotlevel _⟩
  | .pllGetout _, rfl => ⟨_, _, _, rfl, .getout _⟩
  | .pllEvdrain _, rfl => ⟨_, _, _, rfl, .evdrain _⟩

/-- A command resets every unit, or only sends a response, or is the operation of a unit command (R20, R83). -/
theorem exec_cases (i : Instr) (s : State) :
    (i = .coreReset ∧ exec i s = .next (s.resetUnits.respond Flags.none [])) ∨
    (∃ ws, exec i s = .next (s.respond Flags.none ws)) ∨
    ∃ κ k f, UnitCommand s.cfg κ i k f ∧ exec i s = onUnit κ k s f := by
  obtain hreset | ⟨-, hrespond⟩ | haddressed := exec_shape i s
  · exact .inl hreset
  · exact .inr (.inl hrespond)
  · obtain ⟨x, hx⟩ : ∃ x, target i = some x := by
      obtain ⟨_, _, hi, -⟩ | ⟨_, _, hi, -⟩ | ⟨_, _, hi, -⟩ := haddressed <;> exact ⟨_, hi⟩
    obtain ⟨κ, k, f, -, hc⟩ := unitCommand_of_target s.cfg hx
    exact .inr (.inr ⟨κ, k, f, hc, exec_of_unitCommand hc⟩)

/-! ## What a command and a step can do to a unit -/

/-- The answer writes the addressed unit, to `v`. -/
inductive Leaves {σ : Type} : Answer σ → σ → Prop
  | done (v : σ) (fl : Flags) (ws : List Word) : Leaves (.done v fl ws) v
  | invalid (v : σ) : Leaves (.invalid v) v

/-- What the command `i` can do to a unit at any place: nothing, a reset, or the write of the operation it runs. -/
inductive Moves (c : Config) (κ : Kind) (i : Instr) : UnitOf κ → UnitOf κ → Prop
  | stays (u : UnitOf κ) : Moves c κ i u u
  | resets (u : UnitOf κ) (hi : i = .coreReset) : Moves c κ i u (resetUnit κ u)
  | commanded {k : BitVec 4} {f : UnitOf κ → Answer (UnitOf κ)} {u u' : UnitOf κ} (hc : UnitCommand c κ i k f)
      (hu : Leaves (f u) u') : Moves c κ i u u'

theorem moves_same (c : Config) (κ : Kind) (i : Instr) (l : List (UnitOf κ)) : List.Forall₂ (Moves c κ i) l l :=
  List.forall₂_same.2 fun u _ => .stays u

theorem moves_resetUnits (c : Config) (κ : Kind) (l : List (UnitOf κ)) :
    List.Forall₂ (Moves c κ .coreReset) l (l.map (resetUnit κ)) :=
  List.forall₂_map_right_iff.2 (List.forall₂_same.2 fun u _ => .resets u rfl)

/-- A list is related to the list with one element replaced by a related one. -/
theorem forall₂_set {α : Type} {R : α → α → Prop} (hrefl : ∀ a, R a a) {l : List α} {n : Nat} {a b : α}
    (ha : l[n]? = some a) (hab : R a b) : List.Forall₂ R l (l.set n b) := by
  induction l generalizing n with
  | nil => cases ha
  | cons x xs ih =>
    cases n with
    | zero =>
      obtain rfl : x = a := by simpa using ha
      exact .cons hab (List.forall₂_same.2 fun y _ => hrefl y)
    | succ n => exact .cons (hrefl x) (ih (by simpa using ha))

/-- An operation moves the addressed unit; every other unit of its kind and every unit of the other kinds stays. -/
theorem onUnit_moves {c : Config} {κ : Kind} {i : Instr} {k : BitVec 4} {f : UnitOf κ → Answer (UnitOf κ)} {s t : State}
    (hc : UnitCommand c κ i k f) (h : onUnit κ k s f = .next t) (κ' : Kind) :
    List.Forall₂ (Moves c κ' i) (units κ' s) (units κ' t) := by
  have written {u u' : UnitOf κ} (hu : (units κ s)[k.toNat]? = some u) (hl : Leaves (f u) u') :
      List.Forall₂ (Moves c κ' i) (units κ' s) (units κ' (withUnits κ s ((units κ s).set k.toNat u'))) := by
    by_cases hκ : κ' = κ
    · subst hκ
      rw [units_withUnits]
      exact forall₂_set Moves.stays hu (.commanded hc hl)
    · rw [units_withUnits_of_ne hκ]
      exact moves_same c κ' i _
  obtain ⟨e, rfl⟩ | ⟨u, u', hu, ⟨fl, ws, hf, rfl⟩ | ⟨hf, rfl⟩⟩ := onUnit_next h
  · rw [units_raise]
    exact moves_same c κ' i _
  · rw [units_respond]
    exact written hu (hf ▸ .done u' fl ws)
  · rw [units_raise]
    exact written hu (hf ▸ .invalid u')

/-- What a command can do to the units of a kind. -/
theorem exec_moves {i : Instr} {s t : State} (h : exec i s = .next t) (κ : Kind) :
    List.Forall₂ (Moves s.cfg κ i) (units κ s) (units κ t) := by
  obtain ⟨rfl, hi⟩ | ⟨ws, hi⟩ | ⟨κ', k, f, hc, hi⟩ := exec_cases i s <;> rw [hi] at h
  · cases h
    rw [units_respond, units_resetUnits]
    exact moves_resetUnits s.cfg κ _
  · cases h
    rw [units_respond]
    exact moves_same s.cfg κ i _
  · exact onUnit_moves hc h κ

/-- What a step can do to the units of a kind: what some command can do. -/
theorem step_moves {s t : State} (h : step s = .next t) (κ : Kind) :
    ∃ i, List.Forall₂ (Moves s.cfg κ i) (units κ s) (units κ t) := by
  obtain ⟨-, rfl⟩ | ⟨p, rest, -, hrun⟩ | ⟨rest, -, rfl⟩ := step_next h
  · exact ⟨.nop, moves_same _ κ _ _⟩
  · rw [← units_withInput κ s rest]
    unfold runCommand at hrun
    split at hrun
    next i _ => exact ⟨i, exec_moves hrun κ⟩
    next =>
      cases hrun
      rw [units_raise]
      exact ⟨.nop, moves_same _ κ _ _⟩
  · rw [← units_withInput κ s rest, units_hardwareReset]
    exact ⟨.coreReset, moves_resetUnits s.cfg κ _⟩

theorem forall_mem_of_forall₂ {α : Type} {R : α → α → Prop} {P : α → Prop} (hR : ∀ a b, R a b → P a → P b)
    {l m : List α} (h : List.Forall₂ R l m) (hl : ∀ a ∈ l, P a) : ∀ b ∈ m, P b := by
  induction h with
  | nil => exact hl
  | cons hab _ ih =>
    rw [List.forall_mem_cons] at hl ⊢
    exact ⟨hR _ _ hab hl.1, ih hl.2⟩

/-- The induction over a step, once for every invariant of a unit: reset meets it, and every operation of a unit of the kind
keeps it. -/
theorem step_keeps_unit_invariant {κ : Kind} {P : UnitOf κ → Prop} {s t : State} (hreset : ∀ u, P (resetUnit κ u))
    (hkeep : ∀ i k f u u', UnitCommand s.cfg κ i k f → Leaves (f u) u' → P u → P u') (h : step s = .next t)
    (hs : ∀ u ∈ units κ s, P u) : ∀ u ∈ units κ t, P u := by
  obtain ⟨i, hm⟩ := step_moves h κ
  refine forall_mem_of_forall₂ (fun u u' hu hPu => ?_) hm hs
  cases hu with
  | stays => exact hPu
  | resets => exact hreset u
  | commanded hc hl => exact hkeep _ _ _ _ _ hc hl hPu

end Sys2Proof.Proofs
end

section
/-!
PROOF. The frame of a command (R20), the configuration registers (R22) and `ERRFLAGS` (R55): what the completed commands of each
kind leave in their unit, and the statements that follow.
-/

namespace Sys2Proof.Proofs

open Sys2Proof.Machine Sys2Proof.Claims

/-! ## A command sees and changes only its unit (R20) -/

/-- An operation writes neither the parameters, nor the port's queue, nor a unit at another place. -/
theorem onUnit_frame {κ : Kind} {k : BitVec 4} {s t : State} {f : UnitOf κ → Answer (UnitOf κ)}
    (h : onUnit κ k s f = .next t) :
    t.cfg = s.cfg ∧ t.input = s.input ∧ ∀ y, y ≠ (κ, k.toNat) → sameAt y s t := by
  have others (u' : UnitOf κ) (y : Kind × Nat) (hy : y ≠ (κ, k.toNat)) :
      (units y.1 s)[y.2]? = (units y.1 (withUnits κ s ((units κ s).set k.toNat u')))[y.2]? := by
    obtain ⟨κ', n⟩ := y
    by_cases hκ : κ' = κ
    · subst hκ
      have hn : k.toNat ≠ n := fun hn => hy (hn ▸ rfl)
      rw [units_withUnits, List.getElem?_set_ne hn]
    · rw [units_withUnits_of_ne hκ]
  obtain ⟨e, rfl⟩ | ⟨u, u', -, ⟨fl, ws, -, rfl⟩ | ⟨-, rfl⟩⟩ := onUnit_next h
  · exact ⟨rfl, rfl, fun y _ => (sameAt_iff _ _ _ _).2 (by rw [units_raise])⟩
  · refine ⟨by simp, by simp, fun y hy => (sameAt_iff _ _ _ _).2 ?_⟩
    rw [units_respond]
    exact others u' y hy
  · refine ⟨by simp, by simp, fun y hy => (sameAt_iff _ _ _ _).2 ?_⟩
    rw [units_raise]
    exact others u' y hy

/-- What becomes of the unit and of the response depends on the unit alone. -/
theorem settleAnswer_sameAt {κ : Kind} {k : BitVec 4} {s s' t : State} (hs : (units κ s)[k.toNat]? = (units κ s')[k.toNat]?)
    {a : Answer (UnitOf κ)} (h : settleAnswer κ k s a = .next t) :
    ∃ t', settleAnswer κ k s' a = .next t' ∧ t'.response = t.response ∧
      (units κ t)[k.toNat]? = (units κ t')[k.toNat]? := by
  have written (u : UnitOf κ) : ((units κ s).set k.toNat u)[k.toNat]? = ((units κ s').set k.toNat u)[k.toNat]? := by
    rw [List.getElem?_set_self', List.getElem?_set_self', hs]
  cases a with
  | done u fl ws =>
    cases h
    exact ⟨_, rfl, rfl, by simpa using written u⟩
  | error e =>
    cases h
    exact ⟨_, rfl, rfl, by simpa using hs⟩
  | invalid u =>
    cases h
    exact ⟨_, rfl, rfl, by simpa using written u⟩
  | stop x => cases h

theorem onUnit_sameAt {κ : Kind} {k : BitVec 4} {s s' t : State} {f : UnitOf κ → Answer (UnitOf κ)}
    (hs : (units κ s)[k.toNat]? = (units κ s')[k.toNat]?) (h : onUnit κ k s f = .next t) :
    ∃ t', onUnit κ k s' f = .next t' ∧ t'.response = t.response ∧
      (units κ t)[k.toNat]? = (units κ t')[k.toNat]? := by
  cases hk : (units κ s)[k.toNat]? with
  | none =>
    rw [onUnit_of_none f hk] at h
    cases h
    exact ⟨_, onUnit_of_none f (hs ▸ hk), rfl, by simpa using hs⟩
  | some u =>
    rw [onUnit_of_some f hk] at h
    rw [onUnit_of_some f (hs ▸ hk)]
    exact settleAnswer_sameAt hs h

/-- Settles O56: with the same parameters both runs are the same operation on the unit that the command names. -/
theorem commandSeesOnlyItsUnit : Obligations.CommandSeesOnlyItsUnit := by
  unfold Obligations.CommandSeesOnlyItsUnit
  intro i x s s' t hx hcfg hsame h
  obtain ⟨κ, k, f, rfl, hc⟩ := unitCommand_of_target s.cfg hx
  have hi : exec i s = onUnit κ k s f := exec_of_unitCommand hc
  have hi' : exec i s' = onUnit κ k s' f := exec_of_unitCommand (hcfg ▸ hc)
  rw [hi] at h
  obtain ⟨hcfg', hinput, hothers⟩ := onUnit_frame h
  obtain ⟨t', ht', hresp, hunit⟩ := onUnit_sameAt ((sameAt_iff _ _ _ _).1 hsame) h
  exact ⟨hcfg', hinput, hothers, t', hi'.trans ht', hresp, (sameAt_iff _ _ _ _).2 hunit⟩

/-! ## What the commands leave in their unit -/

theorem leaves_rsmpConfigured {u v : Rsmp} {a : Answer Rsmp} (h : Leaves (rsmpConfigured u a) v) :
    u.cfgValid = true ∧ Leaves a v := by
  unfold rsmpConfigured at h
  split at h
  · exact ⟨‹_›, h⟩
  · cases h

theorem leaves_ncoConfigured {u v : Nco} {a : Answer Nco} (h : Leaves (ncoConfigured u a) v) :
    u.cfgValid = true ∧ Leaves a v := by
  unfold ncoConfigured at h
  split at h
  · exact ⟨‹_›, h⟩
  · cases h

theorem leaves_pllConfigured {u v : Pll} {a : Answer Pll} (h : Leaves (pllConfigured u a) v) :
    u.cfgValid = true ∧ Leaves a v := by
  unfold pllConfigured at h
  split at h
  · exact ⟨‹_›, h⟩
  · cases h

theorem leaves_rsmpData {u v : Rsmp} {d : F} {a : Answer Rsmp} (h : Leaves (rsmpData u d a) v) :
    u.cfgValid = true ∧ Leaves a v := by
  obtain ⟨hv, h⟩ := leaves_rsmpConfigured h
  split at h
  · cases h
  · exact ⟨hv, h⟩

theorem leaves_rsmpOutput {u v : Rsmp} {d : F} {p : Nat} {b : Bool} (h : Leaves (rsmpOutput u d p b) v) : v = u := by
  unfold rsmpOutput at h
  split at h <;> cases h
  rfl

theorem leaves_rsmpResampleOutput {u v : Rsmp} {d : F} {b : Bool} (h : Leaves (rsmpResampleOutput u d b) v) : v = u := by
  unfold rsmpResampleOutput at h
  split at h
  · cases h
  · exact leaves_rsmpOutput h

/-- A create that writes its unit either builds the designed bank of legal operands, or leaves the unit unspecified with
`CFG_VALID = 0` (R141, R147). -/
theorem leaves_rsmpCreate {k : BitVec 4} {n t : Word} {rate cutoff : CF} {u v : Rsmp}
    (h : Leaves (rsmpCreateAnswer k n t rate cutoff u) v) :
    (createValid n t rate cutoff = true ∧
      ∃ bank, designBank n.toNat t.toNat rate cutoff = some bank ∧ v = rsmpCreated u n.toNat t.toNat bank) ∨
    v = rsmpUnspecified k u := by
  unfold rsmpCreateAnswer at h
  split at h
  next hvalid =>
    split at h
    next bank hbank =>
      cases h
      exact .inl ⟨hvalid, bank, hbank, rfl⟩
    next =>
      cases h
      exact .inr rfl
  next =>
    cases h
    exact .inr rfl

/-- Every RSMP command but a create leaves its unit as it was or after one consumption (R148, R154 to R156, R158). -/
theorem leaves_rsmp_running {c : Config} {i : Instr} {k : BitVec 4} {f : Rsmp → Answer Rsmp} {u v : Rsmp}
    (hc : UnitCommand c .rsmp i k f) (hi : ¬ isConfiguration i) (h : Leaves (f u) v) :
    v = u ∨ ∃ x, rsmpConsume u x = some v := by
  cases hc with
  | create => exact absurd trivial hi
  | decimate d re im =>
    obtain ⟨-, h⟩ := leaves_rsmpData h
    dsimp only at h
    split at h
    next => cases h
    next u' hu' =>
      split at h
      next =>
        cases h
        exact .inr ⟨_, hu'⟩
      next =>
        split at h
        next => cases h
        next => exact .inr ⟨_, leaves_rsmpOutput h ▸ hu'⟩
  | interpolate d re im =>
    obtain ⟨-, h⟩ := leaves_rsmpData h
    dsimp only at h
    split at h
    next => cases h
    next =>
      split at h
      next => cases h
      next u' hu' =>
        obtain rfl := leaves_rsmpOutput h
        split at hu'
        next => exact .inr ⟨_, hu'⟩
        next => exact .inl (Option.some.inj hu').symm
  | resample cin d re im =>
    obtain ⟨-, h⟩ := leaves_rsmpData h
    dsimp only at h
    split at h
    next =>
      split at h
      next =>
        cases h
        exact .inl rfl
      next =>
        split at h
        next => cases h
        next u' hu' =>
          split at h
          next =>
            cases h
            exact .inr ⟨_, hu'⟩
          next => exact .inr ⟨_, leaves_rsmpResampleOutput h ▸ hu'⟩
    next => exact .inl (leaves_rsmpResampleOutput h)
  | rdtap p j =>
    obtain ⟨-, h⟩ := leaves_rsmpConfigured h
    split at h
    next => cases h
    next =>
      split at h <;> cases h
      exact .inl rfl

/-- Every NCO command but NCO.SETFREQ leaves its unit as it was or after one advance (R186, R188 to R191). -/
theorem leaves_nco_running {c : Config} {i : Instr} {k : BitVec 4} {f : Nco → Answer Nco} {u v : Nco}
    (hc : UnitCommand c .nco i k f) (hi : ¬ isConfiguration i) (h : Leaves (f u) v) : v = u ∨ v = ncoAdvance c.pb u := by
  cases hc with
  | setfreq => exact absurd trivial hi
  | nextphase | next | nextiq =>
    obtain ⟨-, h⟩ := leaves_ncoConfigured h
    cases h
    exact .inr rfl
  | get | getiq =>
    obtain ⟨-, h⟩ := leaves_ncoConfigured h
    cases h
    exact .inl rfl

/-- The next state of a loop after a sample `x` (R220). -/
def pllAfterSample (pb : Nat) (u : Pll) (x : F) : Pll :=
  let pe := pllPhaseError u x
  let freq' := pllClamp u (pllUnclamped u pe)
  pllCommit pb u (pllPilot u x) pe freq' (pllRotate u freq').1 (pllRotate u freq').2

/-- The five values that PLL.PROCESS checks before it writes are finite (R225). -/
structure SampleFinite (u : Pll) (x : F) : Prop where
  pilot : fIsFinite (pllPilot u x) = true
  phaseError : fIsFinite (pllPhaseError u x) = true
  unclamped : fIsFinite (pllUnclamped u (pllPhaseError u x)) = true
  sin : fIsFinite (pllRotate u (pllClamp u (pllUnclamped u (pllPhaseError u x)))).1 = true
  cos : fIsFinite (pllRotate u (pllClamp u (pllUnclamped u (pllPhaseError u x)))).2 = true

/-- A sample that is taken has finite loop values and commits them (R220, R225). -/
theorem leaves_pllProcess {c : Config} {x : F} {u v : Pll} (h : Leaves (pllProcessAnswer c x u) v) :
    SampleFinite u x ∧ v = pllAfterSample c.pb u x := by
  unfold pllProcessAnswer at h
  dsimp only at h
  split at h
  next => cases h
  next =>
    split at h
    next => cases h
    next hloop =>
      split at h
      next => cases h
      next hrotated =>
        cases h
        simp only [Bool.not_eq_true', Bool.not_eq_false, Bool.and_eq_true] at hloop hrotated
        obtain ⟨⟨hpilot, hpe⟩, hfu⟩ := hloop
        obtain ⟨hsin, hcos⟩ := hrotated
        exact ⟨⟨hpilot, hpe, hfu, hsin, hcos⟩, rfl⟩

/-- Every PLL command but PLL.CONFIGURE leaves its unit as it was, after a sample, or drained (R220, R232 to R235). -/
theorem leaves_pll_running {c : Config} {i : Instr} {k : BitVec 4} {f : Pll → Answer Pll} {u v : Pll}
    (hc : UnitCommand c .pll i k f) (hi : ¬ isConfiguration i) (h : Leaves (f u) v) :
    v = u ∨ (∃ x, SampleFinite u x ∧ v = pllAfterSample c.pb u x) ∨ v = pllDrained u := by
  cases hc with
  | configure => exact absurd trivial hi
  | process =>
    obtain ⟨-, h⟩ := leaves_pllConfigured h
    exact .inr (.inl ⟨_, leaves_pllProcess h⟩)
  | locked | pilotlevel | getout =>
    obtain ⟨-, h⟩ := leaves_pllConfigured h
    cases h
    exact .inl rfl
  | evdrain =>
    obtain ⟨-, h⟩ := leaves_pllConfigured h
    cases h
    exact .inr (.inr rfl)

/-- A configure that writes its unit either starts the loop with legal operands, or leaves the unit unspecified with
`CFG_VALID = 0` (R211, R219). -/
theorem leaves_pllConfigure {pb : Nat} {k : BitVec 4} {even : Bool} {var : BitVec 2} {freq bw minsig : CF} {u v : Pll}
    (h : Leaves (pllConfigureAnswer pb k even var freq bw minsig u) v) :
    (configureValid freq bw minsig = true ∧ ∃ w, v = pllConfigured0 u w even freq bw minsig) ∨
    v = pllUnspecified pb k u := by
  unfold pllConfigureAnswer at h
  split at h
  next => cases h
  next w _ =>
    split at h
    next hvalid =>
      cases h
      exact .inl ⟨hvalid, w, rfl⟩
    next =>
      cases h
      exact .inr rfl

/-! ## Configuration registers (R22) -/

theorem rsmpConsume_configRegs {u v : Rsmp} {x : Cplx} (h : rsmpConsume u x = some v) :
    rsmpConfigRegs v = rsmpConfigRegs u := by
  obtain ⟨w, -, -, rfl⟩ := rsmpConsume_eq_some h
  rfl

theorem ncoAdvance_configRegs (pb : Nat) (u : Nco) : ncoConfigRegs (ncoAdvance pb u) = ncoConfigRegs u := by
  obtain ⟨hvalid, hinc, hbits, hint⟩ := ncoAdvance_config pb u
  simp only [ncoConfigRegs, hvalid, hinc, hbits, hint]

/-- What no operation on a unit of the kind writes, a command that is not CORE.RESET leaves as it was in every unit. -/
theorem exec_keeps_registers {κ : Kind} {β : Type} {g : UnitOf κ → β} {i : Instr} {s t : State} (hreset : i ≠ .coreReset)
    (hkeep : ∀ k f u u', UnitCommand s.cfg κ i k f → Leaves (f u) u' → g u' = g u) (h : exec i s = .next t) :
    (units κ t).map g = (units κ s).map g := by
  have pointwise : List.Forall₂ (fun u u' => g u = g u') (units κ s) (units κ t) := (exec_moves h κ).imp fun u u' hu => by
    cases hu with
    | stays => rfl
    | resets _ hi => exact absurd hi hreset
    | commanded hc hl => exact (hkeep _ _ _ _ hc hl).symm
  have mapped : List.Forall₂ Eq ((units κ s).map g) ((units κ t).map g) :=
    List.forall₂_map_left_iff.2 (List.forall₂_map_right_iff.2 pointwise)
  exact (List.forall₂_eq_eq_eq ▸ mapped : _ = _).symm

/-- Settles O58: the running commands write the ring, the phase and the loop's running registers only. -/
theorem onlyConfigurationWritesConfiguration : Obligations.OnlyConfigurationWritesConfiguration := by
  unfold Obligations.OnlyConfigurationWritesConfiguration
  intro i s t hi hreset h
  refine ⟨exec_keeps_registers (κ := .rsmp) hreset (fun k f u u' hc hl => ?_) h,
    exec_keeps_registers (κ := .nco) hreset (fun k f u u' hc hl => ?_) h,
    exec_keeps_registers (κ := .pll) hreset (fun k f u u' hc hl => ?_) h⟩
  · obtain rfl | ⟨x, hx⟩ := leaves_rsmp_running hc hi hl
    · rfl
    · exact rsmpConsume_configRegs hx
  · obtain rfl | rfl := leaves_nco_running hc hi hl
    · rfl
    · exact ncoAdvance_configRegs _ u
  · obtain rfl | ⟨x, -, rfl⟩ | rfl := leaves_pll_running hc hi hl <;> rfl

/-! ## ERRFLAGS (R55) -/

/-- `ERRFLAGS` of `t` is that of `s` with bits added, none of them reserved. -/
def ErrFlagsGrow (s t : State) : Prop := ∃ m, t.errFlags = s.errFlags ||| m ∧ m &&& errReserved = 0#32

theorem ErrFlagsGrow.of_eq {s t : State} (h : t.errFlags = s.errFlags) : ErrFlagsGrow s t :=
  ⟨0#32, by simp [h], by decide⟩

theorem flag_and_errReserved (e : ErrorCode) : e.flag &&& errReserved = 0#32 := by
  cases e <;> decide

theorem errFlagsGrow_raise (s : State) (e : ErrorCode) : ErrFlagsGrow s (s.raise e) :=
  ⟨e.flag, rfl, flag_and_errReserved e⟩

theorem onUnit_errFlags {κ : Kind} {k : BitVec 4} {s t : State} {f : UnitOf κ → Answer (UnitOf κ)}
    (h : onUnit κ k s f = .next t) : ErrFlagsGrow s t := by
  obtain ⟨e, rfl⟩ | ⟨u, u', -, ⟨fl, ws, -, rfl⟩ | ⟨-, rfl⟩⟩ := onUnit_next h
  · exact errFlagsGrow_raise s e
  · exact .of_eq (by simp)
  · exact ⟨ErrorCode.flag .invalidConfiguration, by simp, flag_and_errReserved _⟩

/-- A command but CORE.RESET only adds bits to `ERRFLAGS`. -/
theorem exec_errFlags {i : Instr} {s t : State} (h : exec i s = .next t) :
    (i = .coreReset ∧ t.errFlags = 0#32) ∨ ErrFlagsGrow s t := by
  obtain ⟨rfl, hi⟩ | ⟨ws, hi⟩ | ⟨κ, k, f, -, hi⟩ := exec_cases i s <;> rw [hi] at h
  · cases h
    exact .inl ⟨rfl, rfl⟩
  · cases h
    exact .inr (.of_eq rfl)
  · exact .inr (onUnit_errFlags h)

/-- The rows of the table go by the payload count, which is six words at most (R89). -/
theorem assemble_eq_coreReset {op : Opcode} {h : Word} {ws : List Word} (ha : assemble op h ws = some .coreReset) :
    op = .coreReset ∧ ws = [] := by
  obtain _ | ⟨_, _ | ⟨_, _ | ⟨_, _ | ⟨_, _ | ⟨_, _ | ⟨_, _ | ⟨_, _⟩⟩⟩⟩⟩⟩⟩ := ws <;> cases op <;> cases ha
  exact ⟨rfl, rfl⟩

theorem coreOpcode_eq_coreReset {n : Nat} (h : coreOpcode n = some .coreReset) : n = 1 := by
  unfold coreOpcode at h
  split at h <;> cases h
  rfl

theorem rsmpOpcode_ne_coreReset (n : Nat) : rsmpOpcode n ≠ some .coreReset := by
  unfold rsmpOpcode
  split <;> nofun

theorem ncoOpcode_ne_coreReset (n : Nat) : ncoOpcode n ≠ some .coreReset := by
  unfold ncoOpcode
  split <;> nofun

theorem pllOpcode_ne_coreReset (n : Nat) : pllOpcode n ≠ some .coreReset := by
  unfold pllOpcode
  split <;> nofun

theorem lookupOpcode_eq_coreReset {h : Word} (hl : lookupOpcode h = .ok .coreReset) :
    hdrUnit h = 0#4 ∧ hdrOp h = 1#8 := by
  unfold lookupOpcode at hl
  dsimp only at hl
  split at hl
  case h_1 hu =>
    split at hl <;> cases hl
    next hop => exact ⟨BitVec.eq_of_toNat_eq hu, BitVec.eq_of_toNat_eq (coreOpcode_eq_coreReset hop)⟩
  case h_2 =>
    split at hl <;> cases hl
    next hop => exact absurd hop (rsmpOpcode_ne_coreReset _)
  case h_3 =>
    split at hl <;> cases hl
    next hop => exact absurd hop (ncoOpcode_ne_coreReset _)
  case h_4 =>
    split at hl <;> cases hl
    next hop => exact absurd hop (pllOpcode_ne_coreReset _)
  case h_5 => cases hl

theorem header_eq_coreReset {h : Word} (hunit : hdrUnit h = 0#4) (hop : hdrOp h = 1#8)
    (hzero : h &&& Opcode.coreReset.zeroBits = 0#32) : h = 0x00010000#32 := by
  refine BitVec.eq_of_getLsbD_eq fun j hj => ?_
  have hu := congrArg (BitVec.getLsbD · (j - 28)) hunit
  have ho := congrArg (BitVec.getLsbD · (j - 16)) hop
  have hz := congrArg (BitVec.getLsbD · j) hzero
  simp only [hdrUnit, hdrOp, Opcode.zeroBits, BitVec.getLsbD_extractLsb', BitVec.getLsbD_and] at hu ho hz
  interval_cases j <;> simp_all

/-- CORE.RESET has one packet (R88, R89). -/
theorem decode_eq_coreReset {p : Packet} (h : decode p = .command .coreReset) : p = ⟨0x00010000#32, []⟩ := by
  obtain ⟨header, payload⟩ := p
  unfold decode at h
  split at h
  next => cases h
  next op hop =>
    split at h
    next => cases h
    next hzero =>
      split at h
      next => cases h
      next =>
        split at h
        next i ha =>
          cases h
          obtain ⟨rfl, rfl⟩ := assemble_eq_coreReset ha
          obtain ⟨hunit, hcode⟩ := lookupOpcode_eq_coreReset hop
          exact congrArg (Packet.mk · []) (header_eq_coreReset hunit hcode (not_not.1 hzero))
        next => cases h

/-- Only the two resets clear `ERRFLAGS`; every other step adds bits to it, none of them reserved. -/
theorem step_errFlags {s t : State} (h : step s = .next t) :
    ((s.input.head? = some .hardwareReset ∨ s.input.head? = some (.command ⟨0x00010000#32, []⟩)) ∧ t.errFlags = 0#32) ∨
    ErrFlagsGrow s t := by
  obtain ⟨-, rfl⟩ | ⟨p, rest, hin, hrun⟩ | ⟨rest, hin, rfl⟩ := step_next h
  · exact .inr (.of_eq rfl)
  · unfold runCommand at hrun
    split at hrun
    next i hdec =>
      obtain ⟨rfl, hclear⟩ | hgrow := exec_errFlags hrun
      · exact .inl ⟨.inr (by rw [hin, decode_eq_coreReset hdec]; rfl), hclear⟩
      · exact .inr hgrow
    next =>
      cases hrun
      exact .inr (errFlagsGrow_raise _ _)
  · exact .inl ⟨.inl (by rw [hin]; rfl), rfl⟩

/-- Settles O17: outside the two resets bits are only added, and never a reserved one. -/
theorem errFlagsSticky : Obligations.ErrFlagsSticky := by
  unfold Obligations.ErrFlagsSticky
  refine ⟨fun s t h hhw hcmd => ?_, fun s t hs h => ?_⟩
  · obtain ⟨hreset | hreset, -⟩ | ⟨m, hm, -⟩ := step_errFlags h
    · exact absurd hreset hhw
    · exact absurd hreset hcmd
    · rw [hm]
      ext j
      simpa using Or.inl
  · obtain ⟨-, hclear⟩ | ⟨m, hm, hres⟩ := step_errFlags h
    · rw [hclear]
      decide
    · rw [hm, BitVec.and_or_distrib_right, hs, hres]
      decide

end Sys2Proof.Proofs
end

section
/-!
PROOF. The reset state (R57) and the invariants of the RSMP and the NCO units (R23 to R28, R31 to R37, R145): reset meets each,
every write of a unit keeps it.
-/

namespace Sys2Proof.Proofs

open Sys2Proof.Machine Sys2Proof.Claims

/-! ## Units that are not configured -/

/-- The invariant of an RSMP unit speaks of configured units only. -/
theorem rsmpOk_of_invalid {u : Rsmp} (h : u.cfgValid = false) : RsmpOk u := by
  constructor <;> exact fun hv => absurd hv (by simp [h])

/-- Of a PLL unit that is not configured only the phase and the queue are bounded (R43, R51). -/
theorem pllOk_of_invalid {pb : Nat} {u : Pll} (h : u.cfgValid = false) (hphase : u.phase.toNat < 2 ^ pb)
    (hevq : u.evq.length ≤ Config.evqDepth) : PllOk pb u where
  phase_lt := hphase
  evq_le := hevq
  min_finite hv := by simp [h] at hv
  max_finite hv := by simp [h] at hv
  freq0_finite hv := by simp [h] at hv
  min_pos hv := by simp [h] at hv
  freq0_ge hv := by simp [h] at hv
  freq0_le hv := by simp [h] at hv
  max_le_half hv := by simp [h] at hv
  minsignal_nonneg hv := by simp [h] at hv
  range_nonempty hv := by simp [h] at hv
  freq_ge hv := by simp [h] at hv
  freq_le hv := by simp [h] at hv
  freq_finite hv := by simp [h] at hv
  ps_finite hv := by simp [h] at hv
  pc_finite hv := by simp [h] at hv
  x1_finite hv := by simp [h] at hv
  pilot_finite hv := by simp [h] at hv
  delay_ge hv := by simp [h] at hv
  cnt_le hv := by simp [h] at hv
  out_fits hv := by simp [h] at hv

/-! ## The reset state (R57) -/

theorem rsmpOk_reset (n : Nat) : RsmpOk (Rsmp.reset n) := rsmpOk_of_invalid rfl

theorem ncoOk_reset (pb : Nat) : NcoOk pb Nco.reset where
  phase_lt := Nat.two_pow_pos pb
  inc_lt := Nat.two_pow_pos pb
  dphase_lt := Nat.two_pow_pos pb
  lfsr_ne := by decide
  dither_le := Nat.zero_le _
  dither_small hv := by cases hv

theorem pllOk_reset (pb n : Nat) : PllOk pb (Pll.reset n) :=
  pllOk_of_invalid rfl (Nat.two_pow_pos pb) (Nat.zero_le _)

/-- Settles O11: every unit of the initial state is a unit after reset, and so is its number. -/
theorem resetStateValues : Obligations.ResetStateValues := by
  unfold Obligations.ResetStateValues
  refine ⟨rfl, rfl, rfl, rfl, rfl, fun c => ⟨rfl, rfl, rfl, rfl, by simp, by simp, by simp, ?_, ?_, ?_⟩⟩
  · intro u hu
    rw [List.eq_of_mem_replicate hu]
    exact ⟨rfl, rfl, rfl, rfl⟩
  · intro u hu
    rw [List.eq_of_mem_replicate hu]
    rfl
  · intro u hu
    rw [List.eq_of_mem_replicate hu]
    exact ⟨rfl, rfl⟩

/-- Settles O12: a unit after reset meets its invariant, and the initial state has the units of its parameters. -/
theorem resetMeetsInvariants : Obligations.ResetMeetsInvariants := by
  unfold Obligations.ResetMeetsInvariants
  intro c hc
  refine ⟨fun u hu => ?_, fun u hu => ?_, fun u hu => ?_, ⟨hc, by simp, by simp, by simp⟩, ?_⟩
  · rw [List.eq_of_mem_replicate hu]
    exact rsmpOk_reset 0
  · rw [List.eq_of_mem_replicate hu]
    exact ncoOk_reset _
  · rw [List.eq_of_mem_replicate hu]
    exact pllOk_reset _ 0
  · rw [State.initial_errFlags]
    decide

/-! ## The designed bank (R60, R145) -/

/-- What the check of RSMP.CREATE says of the sizes it lets through (R142). -/
theorem createValid_sizes {n t : Word} {rate cutoff : CF} (h : createValid n t rate cutoff = true) :
    1 ≤ n.toNat ∧ n.toNat ≤ Config.maxPhaseSteps ∧ 1 ≤ t.toNat ∧ t.toNat ≤ Config.maxNtaps ∧
      n.toNat * t.toNat ≤ Config.maxBank := by
  simp only [createValid, Bool.and_eq_true, decide_eq_true_eq] at h
  obtain ⟨⟨⟨⟨⟨⟨⟨⟨⟨hn, ht⟩, -⟩, -⟩, -⟩, -⟩, -⟩, hn'⟩, ht'⟩, hbank⟩ := h
  have pos {w : Word} (hw : 0 < w.toInt) : 1 ≤ w.toNat := by
    rw [BitVec.toInt_eq_toNat_cond] at hw
    split at hw <;> omega
  exact ⟨pos hn, hn', pos ht, ht', hbank⟩

theorem normalizeRow_eq_some {gs : List Encl} {row : List F} (h : normalizeRow gs = some row) :
    row.length = gs.length ∧ ∀ a ∈ row, fIsFinite a = true := by
  have checked {taps : List F} (hl : taps.length = gs.length)
      (ht : (if taps.all fIsFinite then some taps else none) = some row) :
      row.length = gs.length ∧ ∀ a ∈ row, fIsFinite a = true := by
    split at ht
    next hfin =>
      cases ht
      exact ⟨hl, List.all_eq_true.1 hfin⟩
    next => cases ht
  unfold normalizeRow at h
  dsimp only at h
  split at h
  next taps htaps =>
    refine checked ?_ h
    split_ifs at htaps <;> cases htaps <;> simp
  next => cases h

/-- The rows of a bank in order, each of `t` finite taps (R62, R145). -/
theorem designRows_eq_some {n t fc fs count p : Nat} {bank : List F} (h : designRows n t fc fs count p = some bank) :
    bank.length = count * t ∧ ∀ a ∈ bank, fIsFinite a = true := by
  induction count generalizing p bank with
  | zero =>
    cases h
    simp
  | succ count ih =>
    unfold designRows at h
    split at h
    next row rest hrow hrest =>
      cases h
      obtain ⟨hrowLength, hrowFinite⟩ := normalizeRow_eq_some hrow
      obtain ⟨hrestLength, hrestFinite⟩ := ih hrest
      have ht : row.length = t := by simpa [prototypeRow] using hrowLength
      refine ⟨by rw [List.length_append, ht, hrestLength, Nat.succ_mul, Nat.add_comm], fun a ha => ?_⟩
      exact (List.mem_append.1 ha).elim (hrowFinite a) (hrestFinite a)
    next => cases h

theorem designBank_eq_some {n t : Nat} {rate cutoff : CF} {bank : List F} (h : designBank n t rate cutoff = some bank) :
    bank.length = n * t ∧ ∀ a ∈ bank, fIsFinite a = true :=
  designRows_eq_some h

/-! ## The invariant of an RSMP unit -/

/-- A bank of legal sizes over a flushed ring meets the invariant (R146). -/
theorem rsmpOk_created {n t : Word} {rate cutoff : CF} {bank : List F} (u : Rsmp)
    (hvalid : createValid n t rate cutoff = true) (hbank : designBank n.toNat t.toNat rate cutoff = some bank) :
    RsmpOk (rsmpCreated u n.toNat t.toNat bank) := by
  obtain ⟨hn, hn', ht, ht', hnt⟩ := createValid_sizes hvalid
  obtain ⟨hlength, hfinite⟩ := designBank_eq_some hbank
  have hsteps : (rsmpCreated u n.toNat t.toNat bank).phaseSteps.toNat = n.toNat := by
    simp only [rsmpCreated_phaseSteps, BitVec.toNat_ofNat, Config.maxPhaseSteps] at hn' ⊢
    omega
  have hntaps : (rsmpCreated u n.toNat t.toNat bank).ntaps.toNat = t.toNat := by
    simp only [rsmpCreated_ntaps, BitVec.toNat_ofNat, Config.maxNtaps] at ht' ⊢
    omega
  constructor <;> intro _
  case steps_pos => rwa [hsteps]
  case steps_le => rwa [hsteps]
  case ntaps_pos => rwa [hntaps]
  case ntaps_le => rwa [hntaps]
  case bank_le => rwa [hsteps, hntaps]
  case taps_wf =>
    rw [hsteps, hntaps]
    simp [Memory.wf, hlength]
  case ring_wf =>
    rw [hntaps]
    simp [Memory.wf]
  case wpos_lt =>
    rw [hntaps, rsmpCreated_wpos]
    exact ht
  case taps_finite => exact hfinite

/-- The write position moves back by one modulo `NTAPS` (R148). -/
theorem wpos_back_lt {wpos ntaps : BitVec 16} (h : wpos.toNat < ntaps.toNat) :
    (if wpos = 0#16 then ntaps - 1#16 else wpos - 1#16).toNat < ntaps.toNat := by
  split
  next => bv_omega
  next hne => bv_omega

/-- A consumption writes the ring in place and keeps the write position inside it. -/
theorem rsmpConsume_keeps_ok {u v : Rsmp} {x : Cplx} (h : rsmpConsume u x = some v) (hu : RsmpOk u) : RsmpOk v := by
  obtain ⟨w, hw, -, rfl⟩ := rsmpConsume_eq_some h
  exact { hu with
    ring_wf := fun hv => by simpa [Memory.wf] using hu.ring_wf hv
    wpos_lt := fun hv => hw ▸ wpos_back_lt (hu.wpos_lt hv) }

theorem rsmp_keeps_ok {c : Config} {i : Instr} {k : BitVec 4} {f : Rsmp → Answer Rsmp} {u v : Rsmp}
    (hc : UnitCommand c .rsmp i k f) (h : Leaves (f u) v) (hu : RsmpOk u) : RsmpOk v := by
  by_cases hi : isConfiguration i
  · cases hc with
    | create =>
      obtain ⟨hvalid, bank, hbank, rfl⟩ | rfl := leaves_rsmpCreate h
      · exact rsmpOk_created u hvalid hbank
      · exact rsmpOk_of_invalid rfl
    | _ => cases hi
  · obtain rfl | ⟨x, hx⟩ := leaves_rsmp_running hc hi h
    · exact hu
    · exact rsmpConsume_keeps_ok hx hu

/-- Settles O35. -/
theorem stepKeepsRsmpInvariant : Obligations.StepKeepsRsmpInvariant := by
  unfold Obligations.StepKeepsRsmpInvariant
  intro s t hs h
  exact step_keeps_unit_invariant (κ := .rsmp) (fun u => rsmpOk_reset u.freeIx)
    (fun i k f u u' hc hl hu => rsmp_keeps_ok hc hl hu) h hs

/-! ## Phases of `PB` bits (R121) -/

theorem two_pow_pb_le (c : Config) : 2 ^ c.pb ≤ 2 ^ 64 := by
  refine Nat.pow_le_pow_right (by omega) ?_
  unfold Config.pb PhaseBits.bits
  split <;> omega

theorem phaseAdd_toNat (c : Config) (a b : DWord) : (phaseAdd c.pb a b).toNat = (a.toNat + b.toNat) % 2 ^ c.pb :=
  Nat.mod_eq_of_lt (lt_of_lt_of_le (Nat.mod_lt _ (Nat.two_pow_pos _)) (two_pow_pb_le c))

theorem phaseOfInt_lt (c : Config) (n : Int) : (phaseOfInt c.pb n).toNat < 2 ^ c.pb := by
  have hpos : (0 : Int) < ((2 ^ c.pb : Nat) : Int) := by exact_mod_cast Nat.two_pow_pos c.pb
  have hlt := Int.emod_lt_of_pos n hpos
  have hnonneg := Int.emod_nonneg n hpos.ne'
  exact lt_of_le_of_lt (Nat.mod_le _ _) (by omega)

/-! ## The dither generator (R123, R185) -/

/-- The generator never reaches 0: a step without feedback only drops a clear bit, and the feedback sets bit 31 (R35). -/
theorem lfsrStep_ne_zero {l : Word} (h : l ≠ 0#32) : lfsrStep l ≠ 0#32 := by
  unfold lfsrStep
  dsimp only
  split
  next =>
    intro h0
    have h31 := congrArg (BitVec.getLsbD · 31) h0
    simp [Config.lfsrPoly] at h31
  next hbit =>
    intro h0
    refine h (BitVec.eq_of_getLsbD_eq fun j _ => ?_)
    cases j with
    | zero => simpa using hbit
    | succ j => simpa [Nat.add_comm] using congrArg (BitVec.getLsbD · j) h0

/-- The dithered phase lies ahead of the true phase by the dither value, modulo 2^PB (R37). -/
theorem dither_distance {M p d : Nat} (hp : p ≤ M) (hd : d < M) : ((p + d) % M + (M - p)) % M = d := by
  rw [Nat.mod_add_mod, show p + d + (M - p) = d + M by omega, Nat.add_mod_right, Nat.mod_eq_of_lt hd]

theorem dither_none {M p : Nat} (hp : p ≤ M) : (p + (M - p)) % M = 0 := by
  rw [Nat.add_sub_cancel' hp, Nat.mod_self]

theorem ditherValue_lt (bits : BitVec 6) (l : Word) : (ditherValue bits l).toNat < 2 ^ bits.toNat :=
  lt_of_le_of_lt (Nat.mod_le _ _) (Nat.mod_lt _ (Nat.two_pow_pos _))

/-! ## The invariant of an NCO unit -/

/-- An advance keeps both phases in their width, the generator off 0 and the dither within its range (R37). -/
theorem ncoAdvance_keeps_ok {c : Config} {u : Nco} (hu : NcoOk c.pb u) : NcoOk c.pb (ncoAdvance c.pb u) := by
  unfold ncoAdvance
  dsimp only
  have hphase := phaseAdd_lt c u.phase u.inc
  split
  next =>
    exact { hu with
      phase_lt := hphase
      dphase_lt := hphase
      dither_small := fun _ => dither_none hphase.le ▸ Nat.two_pow_pos _ }
  next =>
    have hdither := ditherValue_lt u.ditherBits (lfsrStep u.lfsr)
    have hrange : 2 ^ u.ditherBits.toNat ≤ 2 ^ c.pb :=
      Nat.pow_le_pow_right (by omega) (hu.dither_le.trans (Nat.sub_le _ _))
    exact { hu with
      phase_lt := hphase
      dphase_lt := phaseAdd_lt c _ _
      lfsr_ne := lfsrStep_ne_zero hu.lfsr_ne
      dither_small := fun _ => by
        rw [phaseAdd_toNat c (phaseAdd c.pb u.phase u.inc), dither_distance hphase.le (hdither.trans_le hrange)]
        exact hdither }

/-- NCO.SETFREQ with valid operands starts with no dither (R181). -/
theorem ncoOk_setfreq {c : Config} {ip : Bool} {db : BitVec 6} {freq rate : CF} {u v : Nco}
    (h : Leaves (ncoSetfreqAnswer c ip db freq rate u) v) (hu : NcoOk c.pb u) : NcoOk c.pb v := by
  unfold ncoSetfreqAnswer at h
  split at h
  next hvalid =>
    cases h
    simp only [setfreqValid, Bool.and_eq_true, decide_eq_true_eq] at hvalid
    exact { hu with
      inc_lt := phaseOfInt_lt c _
      dphase_lt := hu.phase_lt
      dither_le := hvalid.2
      dither_small := fun _ => dither_none hu.phase_lt.le ▸ Nat.two_pow_pos _ }
  next =>
    cases h
    exact { hu with dither_small := fun hv => by cases hv }

theorem nco_keeps_ok {c : Config} {i : Instr} {k : BitVec 4} {f : Nco → Answer Nco} {u v : Nco}
    (hc : UnitCommand c .nco i k f) (h : Leaves (f u) v) (hu : NcoOk c.pb u) : NcoOk c.pb v := by
  by_cases hi : isConfiguration i
  · cases hc with
    | setfreq => exact ncoOk_setfreq h hu
    | _ => cases hi
  · obtain rfl | rfl := leaves_nco_running hc hi h
    · exact hu
    · exact ncoAdvance_keeps_ok hu

/-- Settles O43: the parameters of the next state are those of the state, so the width of the phases is the same. -/
theorem stepKeepsNcoInvariant : Obligations.StepKeepsNcoInvariant := by
  unfold Obligations.StepKeepsNcoInvariant
  intro s t hs h
  obtain ⟨hcfg, -⟩ := stepKeepsCounts s t h
  unfold State.ncosOk
  rw [hcfg]
  exact step_keeps_unit_invariant (κ := .nco) (fun _ => ncoOk_reset s.cfg.pb)
    (fun i k f u u' hc hl hu => nco_keeps_ok hc hl hu) h hs

end Sys2Proof.Proofs
end

section
/-!
PROOF. Rounding and order of the non-negative `F` values by their bit patterns (R111, R112, R115): `rnd_F` is monotone, and
patterns below the sign bit are ordered as their values.
-/

namespace Sys2Proof.Proofs

open Sys2Proof.Machine Sys2Proof.Claims

/-! ## Rounding is monotone (R112) -/

theorem div_le_roundHalfEven (n d : Nat) : n / d ≤ roundHalfEven n d := by
  unfold roundHalfEven
  dsimp only
  split <;> omega

theorem roundHalfEven_le_succ (n d : Nat) : roundHalfEven n d ≤ n / d + 1 := by
  unfold roundHalfEven
  dsimp only
  split <;> omega

theorem roundHalfEven_mono {n m : Nat} (h : n ≤ m) (d : Nat) : roundHalfEven n d ≤ roundHalfEven m d := by
  obtain hlt | heq := (Nat.div_le_div_right (c := d) h).lt_or_eq
  · exact (roundHalfEven_le_succ n d).trans (hlt.trans_le (div_le_roundHalfEven m d))
  · have hr : n % d ≤ m % d := by
      have hn := Nat.div_add_mod n d
      have hm := Nat.div_add_mod m d
      rw [heq] at hn
      omega
    unfold roundHalfEven
    dsimp only
    rw [heq]
    split_ifs <;> omega

/-- The number of bits that `rndMag` drops from the magnitude `a`. -/
def droppedBits (a : Nat) : Nat := Nat.log2 a - 23

theorem rndMag_eq (n d : Nat) :
    rndMag n d = min (droppedBits (n / d) * 2 ^ 23 + roundHalfEven n (d * 2 ^ droppedBits (n / d))) 0x7F800000 := rfl

theorem rndMag_le (n d : Nat) : rndMag n d ≤ 0x7F800000 := Nat.min_le_right _ _

theorem droppedBits_mono {a b : Nat} (h : a ≤ b) : droppedBits a ≤ droppedBits b := by
  simp only [droppedBits, Nat.log2_eq_log_two]
  exact Nat.sub_le_sub_right (Nat.log_mono_right h) 23

/-- The kept fraction rounds to 24 bits or to the carry out of them. -/
theorem kept_le (n d : Nat) : roundHalfEven n (d * 2 ^ droppedBits (n / d)) ≤ 2 ^ 24 := by
  refine (roundHalfEven_le_succ _ _).trans ?_
  rw [← Nat.div_div_eq_div_mul]
  refine Nat.div_lt_of_lt_mul ?_
  have hlog : n / d < 2 ^ (Nat.log2 (n / d) + 1) := Nat.lt_log2_self
  refine hlog.trans_le ?_
  rw [← pow_add]
  refine Nat.pow_le_pow_right (by omega) ?_
  unfold droppedBits
  omega

/-- Where bits are dropped the kept fraction has its leading bit. -/
theorem le_kept {n d : Nat} (h : 0 < droppedBits (n / d)) : 2 ^ 23 ≤ roundHalfEven n (d * 2 ^ droppedBits (n / d)) := by
  refine le_trans ?_ (div_le_roundHalfEven _ _)
  have hlog : Nat.log2 (n / d) = 23 + droppedBits (n / d) := by
    unfold droppedBits at h ⊢
    omega
  have hne : n / d ≠ 0 := by
    intro h0
    simp [h0, droppedBits] at h
  rw [← Nat.div_div_eq_div_mul, Nat.le_div_iff_mul_le (Nat.two_pow_pos _), ← pow_add, ← hlog]
  exact Nat.log2_self_le hne

/-- Rounding keeps the order of two magnitudes over one denominator. -/
theorem rndMag_mono {n m : Nat} (h : n ≤ m) (d : Nat) : rndMag n d ≤ rndMag m d := by
  rw [rndMag_eq, rndMag_eq]
  refine min_le_min_right _ ?_
  obtain heq | hlt := (droppedBits_mono (Nat.div_le_div_right (c := d) h)).eq_or_lt
  · rw [heq]
    exact Nat.add_le_add_left (roundHalfEven_mono h _) _
  · have hn := kept_le n d
    have hm : 2 ^ 23 ≤ roundHalfEven m (d * 2 ^ droppedBits (m / d)) := le_kept (by omega)
    omega

theorem rndMag_zero (d : Nat) : rndMag 0 d = 0 := by
  simp [rndMag, roundHalfEven]

/-- The pattern of the rounding of a non-negative quotient is its magnitude: the sign bit is clear (R111). -/
theorem rndF_natCast_toNat (n d : Nat) : (rndF (n : Int) d).toNat = rndMag (n * 2 ^ 149) d := by
  have hle := rndMag_le (n * 2 ^ 149) d
  unfold rndF rndUnits
  split
  next h0 =>
    have hn : n = 0 := by
      have : (0 : Int) < 2 ^ 149 := by positivity
      simpa [this.ne'] using h0
    subst hn
    rw [Nat.zero_mul, rndMag_zero]
    rfl
  next =>
    have hnonneg : ¬ (n : Int) * 2 ^ 149 < 0 := by
      have : (0 : Int) ≤ (n : Int) * 2 ^ 149 := by positivity
      omega
    have habs : ((n : Int) * 2 ^ 149).natAbs = n * 2 ^ 149 := by
      rw [Int.natAbs_mul, Int.natAbs_natCast]
      rfl
    rw [if_neg hnonneg, habs, BitVec.toNat_ofNat, Nat.zero_add]
    exact Nat.mod_eq_of_lt (by omega)

/-! ## Patterns below the sign bit (R111, R115) -/

theorem fExp_eq (a : F) : fExp a = a.toNat / 2 ^ 23 % 2 ^ 8 := by
  simp [fExp, Nat.shiftRight_eq_div_pow]

theorem fFrac_eq (a : F) : fFrac a = a.toNat % 2 ^ 23 := by
  simp [fFrac]

theorem fIsNaN_of_le {a : F} (h : a.toNat ≤ 0x7F800000) : fIsNaN a = false := by
  simp only [fIsNaN, fExp_eq, fFrac_eq, Bool.and_eq_false_iff, beq_eq_false_iff_ne, bne_eq_false_iff_eq]
  omega

theorem fIsFinite_fZero : fIsFinite fZero = true := by decide

theorem fIsFinite_fOne : fIsFinite fOne = true := by decide

theorem fIsFinite_of_lt {a : F} (h : a.toNat < 0x7F800000) : fIsFinite a = true := by
  simp only [fIsFinite, fExp_eq, bne_iff_ne]
  omega

theorem fScaled_of_lt {a : F} (h : a.toNat < 2 ^ 31) : fScaled a = fMag a := by
  have hsign : fSign a = false := by
    rw [fSign, BitVec.getLsbD, Nat.testBit_eq_false_of_lt h]
  simp [fScaled, hsign]

/-- A larger exponent field outweighs every fraction. -/
theorem fMag_le_of_fExp_lt {a b : F} (h : fExp a < fExp b) : fMag a ≤ fMag b := by
  have hfrac : fFrac a < 2 ^ 23 := (a.extractLsb' 0 23).isLt
  have hb : 2 ^ 23 * 2 ^ (fExp b - 1) ≤ fMag b := by
    rw [fMag, if_neg (by omega)]
    exact Nat.mul_le_mul_right _ (Nat.le_add_right _ _)
  refine le_trans ?_ hb
  unfold fMag
  split
  next => exact hfrac.le.trans (Nat.le_mul_of_pos_right _ (Nat.two_pow_pos _))
  next h0 =>
    calc (2 ^ 23 + fFrac a) * 2 ^ (fExp a - 1)
        ≤ 2 ^ 24 * 2 ^ (fExp a - 1) := Nat.mul_le_mul_right _ (by omega)
      _ = 2 ^ 23 * 2 ^ (fExp a) := by
        rw [← pow_add, ← pow_add]
        congr 1
        omega
      _ ≤ 2 ^ 23 * 2 ^ (fExp b - 1) := Nat.mul_le_mul_left _ (Nat.pow_le_pow_right (by omega) (by omega))

theorem fMag_mono {a b : F} (h : a.toNat ≤ b.toNat) (hb : b.toNat < 2 ^ 31) : fMag a ≤ fMag b := by
  obtain hlt | heq : fExp a < fExp b ∨ fExp a = fExp b := by
    rw [fExp_eq, fExp_eq]
    omega
  · exact fMag_le_of_fExp_lt hlt
  · have hfrac : fFrac a ≤ fFrac b := by
      rw [fExp_eq, fExp_eq] at heq
      rw [fFrac_eq, fFrac_eq]
      omega
    unfold fMag
    rw [heq]
    split
    · exact hfrac
    · exact Nat.mul_le_mul_right _ (Nat.add_le_add_left hfrac _)

theorem fge_of_toNat_le {a b : F} (h : b.toNat ≤ a.toNat) (ha : a.toNat ≤ 0x7F800000) : fge a b = true := by
  simp only [fge, fIsNaN_of_le ha, fIsNaN_of_le (h.trans ha), Bool.not_false, Bool.true_and, decide_eq_true_eq]
  rw [fScaled_of_lt (by omega), fScaled_of_lt (by omega)]
  exact_mod_cast fMag_mono h (by omega)

theorem fgt_zero_of_toNat_pos {a : F} (h : 0 < a.toNat) (ha : a.toNat ≤ 0x7F800000) : fgt a fZero = true := by
  have hmag : 0 < fMag a := by
    unfold fMag
    split
    next he =>
      rw [fExp_eq] at he
      rw [fFrac_eq]
      omega
    next => positivity
  have hzero : fScaled fZero = 0 := by decide
  have hnan : fIsNaN fZero = false := by decide
  simp only [fgt, fIsNaN_of_le ha, hnan, Bool.not_false, Bool.true_and, decide_eq_true_eq, hzero]
  rw [fScaled_of_lt (by omega)]
  exact_mod_cast hmag

/-! ## Finite values are ordered (R115) -/

theorem fIsNaN_of_finite {a : F} (h : fIsFinite a = true) : fIsNaN a = false := by
  simp only [fIsFinite, bne_iff_ne] at h
  simp [fIsNaN, h]

theorem fge_refl {a : F} (h : fIsFinite a = true) : fge a a = true := by
  simp [fge, fIsNaN_of_finite h]

/-- Between finite values what is not below is at least. -/
theorem fge_of_not_fgt {a b : F} (ha : fIsFinite a = true) (hb : fIsFinite b = true) (h : ¬ fgt b a = true) :
    fge a b = true := by
  simpa [fge, fgt, fIsNaN_of_finite ha, fIsNaN_of_finite hb] using h

end Sys2Proof.Proofs
end

section
/-!
PROOF. The invariant of the PLL units (R39, R42 to R44, R48, R50, R51, R225): the registers that PLL.CONFIGURE derives from legal
operands are ordered, and every write of a unit keeps the invariant.
-/

namespace Sys2Proof.Proofs

open Sys2Proof.Machine Sys2Proof.Claims

/-! ## Legal operands of PLL.CONFIGURE (R212, R217) -/

theorem cfOne_eq : (cfOne : Int) = 2 ^ 1074 := by
  unfold cfOne
  exact Nat.cast_pow 2 1074

theorem cfOne_pos : 0 < cfOne := by
  unfold cfOne
  positivity

theorem le_ceilDiv_mul (n : Int) {d : Nat} (hd : 0 < d) : n ≤ ceilDiv n d * d := by
  have h := Int.ediv_mul_le (-n) (show (d : Int) ≠ 0 by omega)
  rw [ceilDiv, Int.neg_mul]
  omega

/-- A pilot below half the sample rate has a period of two samples or more. -/
theorem two_le_pilotPeriod {f : Int} (hf : 0 < f) (hhalf : 2 * f < cfOne) : 2 ≤ pilotPeriod f := by
  have hrha : 2 ≤ rha cfOne f.toNat := by
    rw [rha, if_pos (Int.natCast_nonneg _), Int.toNat_of_nonneg hf.le, Int.le_ediv_iff_mul_le (by omega)]
    omega
  unfold pilotPeriod
  omega

/-- The lock threshold spans `PLL_KLOCK` time constants of the loop: `LOCK_DELAY b >= PLL_KLOCK` (R217). -/
theorem klock_le_mul_lockDelayOf {f b : Int} (hf : 0 < f) (hhalf : 2 * f < cfOne) (hb : 0 < b) :
    (Config.pllKlock * cfOne : Int) ≤ b * lockDelayOf f b := by
  have htp := two_le_pilotPeriod hf hhalf
  have hbtp : 0 < b.toNat * pilotPeriod f := Nat.mul_pos (by omega) (by omega)
  have hle := le_ceilDiv_mul (Config.pllKlock * cfOne) hbtp
  refine hle.trans ?_
  have hb' : (b.toNat : Int) = b := Int.toNat_of_nonneg hb.le
  simp only [lockDelayOf, Nat.cast_mul, hb']
  rw [mul_left_comm]
  gcongr
  exact Int.self_le_toNat _

/-- The threshold is a positive number of whole periods. -/
theorem two_le_lockDelayOf {f b : Int} (hf : 0 < f) (hhalf : 2 * f < cfOne) (hb : 0 < b) : 2 ≤ lockDelayOf f b := by
  have htp := two_le_pilotPeriod hf hhalf
  have hpos : 0 < lockDelayOf f b := by
    have hk := klock_le_mul_lockDelayOf hf hhalf hb
    have hone : (0 : Int) < Config.pllKlock * cfOne := by
      have hcf := cfOne_pos
      simp only [Config.pllKlock]
      omega
    have := pos_of_mul_pos_right (hone.trans_le hk) hb.le
    exact_mod_cast this
  unfold lockDelayOf at hpos ⊢
  exact htp.trans (Nat.le_mul_of_pos_left _ (Nat.pos_of_mul_pos_right hpos))

/-- The magnitude of a usable operand in units of 2^-1074 (R117). -/
def cfMag (c : CF) : Nat := if cfExp c = 0 then cfFrac c else (2 ^ 52 + cfFrac c) * 2 ^ (cfExp c - 1)

theorem cfScaled_eq (c : CF) : cfScaled c = if c.getLsbD 63 then -(cfMag c : Int) else cfMag c := rfl

/-- A magnitude of `2^(53+j)` units or more is a whole multiple of `2^j` units: its fraction has 53 bits. -/
theorem two_pow_dvd_cfMag {c : CF} {j : Nat} (h : 2 ^ (53 + j) ≤ cfMag c) : 2 ^ j ∣ cfMag c := by
  have hfrac : cfFrac c < 2 ^ 52 := (c.extractLsb' 0 52).isLt
  unfold cfMag at h ⊢
  split at h
  next =>
    have hpow : 2 ^ 52 ≤ 2 ^ (53 + j) := Nat.pow_le_pow_right (by omega) (by omega)
    omega
  next he =>
    rw [if_neg he]
    refine (pow_dvd_pow 2 ?_).mul_left _
    rw [pow_add] at h
    have hlt : 2 ^ 53 * 2 ^ j < 2 ^ 53 * 2 ^ (cfExp c - 1) :=
      h.trans_lt (Nat.mul_lt_mul_of_pos_right (by omega) (Nat.two_pow_pos _))
    exact ((Nat.pow_lt_pow_iff_right (by omega)).1 (Nat.lt_of_mul_lt_mul_left hlt)).le

theorem two_pow_dvd_cfScaled {c : CF} {j : Nat} (h : (2 : Int) ^ (53 + j) ≤ cfScaled c) : (2 : Int) ^ j ∣ cfScaled c := by
  have hpos : (0 : Int) < 2 ^ (53 + j) := by positivity
  rw [cfScaled_eq] at h ⊢
  split at h
  next => omega
  next hsign =>
    rw [if_neg hsign]
    exact_mod_cast two_pow_dvd_cfMag (by exact_mod_cast h)

/-- A threshold that fits its 32 bits bounds the bandwidth from below (R212). -/
theorem bandwidth_ge {f b : Int} (hf : 0 < f) (hhalf : 2 * f < cfOne) (hb : 0 < b) (hdelay : lockDelayOf f b ≤ 2 ^ 32 - 1) :
    (2 : Int) ^ (53 + 925) ≤ b := by
  by_contra hlt
  have hone : (2 : Int) ^ (53 + 925) * 2 ^ 32 ≤ cfOne := by
    rw [cfOne_eq, ← pow_add]
    exact pow_le_pow_right₀ (by omega) (by omega)
  have hprod : b * lockDelayOf f b ≤ 2 ^ (53 + 925) * 2 ^ 32 :=
    mul_le_mul (not_le.1 hlt).le (by omega) (Int.natCast_nonneg _) (by positivity)
  have hk := klock_le_mul_lockDelayOf hf hhalf hb
  have hcf := cfOne_pos
  simp only [Config.pllKlock] at hk
  omega

/-! ## The derived frequency registers (R214) -/

theorem rndCf_toNat {n : Int} (hn : 0 ≤ n) : (rndCf n).toNat = rndMag (n.toNat * 2 ^ 149) cfOne := by
  rw [← rndF_natCast_toNat, Int.toNat_of_nonneg hn, rndCf]

theorem rndCf_le {n : Int} (hn : 0 ≤ n) : (rndCf n).toNat ≤ 0x7F800000 :=
  rndCf_toNat hn ▸ rndMag_le _ _

theorem rndCf_mono {n m : Int} (hn : 0 ≤ n) (h : n ≤ m) : (rndCf n).toNat ≤ (rndCf m).toNat := by
  rw [rndCf_toNat hn, rndCf_toNat (hn.trans h)]
  exact rndMag_mono (Nat.mul_le_mul_right _ (Int.toNat_le_toNat h)) _

theorem rndCf_half : (rndCf (2 ^ 1073)).toNat = 0x3F000000 := by decide +kernel

theorem rndCf_smallest : (rndCf (2 ^ 925)).toNat = 1 := by decide +kernel

/-- The patterns of the frequency registers for legal operands: `0 < MINFREQ <= FREQ0 <= MAXFREQ <= 0.5` (R39). The lower limit
does not round to 0, since the operands are multiples of 2^-149 when the threshold of R217 fits its register. -/
structure FrequencyPatterns (f b : Int) : Prop where
  min_pos : 0 < (rndCf (f - b)).toNat
  min_le : (rndCf (f - b)).toNat ≤ (rndCf f).toNat
  le_max : (rndCf f).toNat ≤ (rndCf (f + b)).toNat
  max_le : (rndCf (f + b)).toNat ≤ 0x3F000000

theorem frequencyPatterns_of_valid {freq bw minsig : CF} (h : configureValid freq bw minsig = true) :
    FrequencyPatterns (cfScaled freq) (cfScaled bw) := by
  obtain ⟨-, -, -, hb, hmin, hmax, -, hdelay⟩ := configureValid_true h
  have hbw := bandwidth_ge (by omega) (by omega) hb hdelay
  have hfreq : (2 : Int) ^ (53 + 925) ≤ cfScaled freq := by omega
  have hdvd : (2 : Int) ^ 925 ∣ cfScaled freq - cfScaled bw :=
    dvd_sub (two_pow_dvd_cfScaled hfreq) (two_pow_dvd_cfScaled hbw)
  refine ⟨?_, rndCf_mono hmin.le (by omega), rndCf_mono (by omega) (by omega), ?_⟩
  · have hle := rndCf_mono (by positivity) (Int.le_of_dvd hmin hdvd)
    rw [rndCf_smallest] at hle
    exact hle
  · have hhalf : cfScaled freq + cfScaled bw ≤ 2 ^ 1073 := by
      rw [cfOne_eq, pow_succ] at hmax
      omega
    rw [← rndCf_half]
    exact rndCf_mono (by omega) hhalf

/-! ## A configured unit -/

theorem pllProject_fits (v : Variant) (ps pc : F) (ph : DWord) : (pllProject v ps pc ph).fits v = true := by
  cases v <;> rfl

/-- PLL.CONFIGURE with legal operands starts a loop that meets the invariant (R213 to R218). -/
theorem pllOk_configured {freq bw minsig : CF} (c : Config) (u : Pll) (v : Variant) (even : Bool)
    (h : configureValid freq bw minsig = true) : PllOk c.pb (pllConfigured0 u v even freq bw minsig) := by
  obtain ⟨hpos, hmin, hmax, hhalf⟩ := frequencyPatterns_of_valid h
  obtain ⟨-, -, -, hb, hfb, hfmax, hminsig, hdelay⟩ := configureValid_true h
  have hthreshold : (pllConfigured0 u v even freq bw minsig).lockDelay.toNat = lockDelayOf (cfScaled freq) (cfScaled bw) := by
    rw [pllConfigured0_lockDelay, BitVec.toNat_ofNat]
    omega
  exact {
    phase_lt := Nat.two_pow_pos _
    evq_le := Nat.zero_le _
    min_finite := fun _ => fIsFinite_of_lt (by rw [pllConfigured0_minfreq]; omega)
    max_finite := fun _ => fIsFinite_of_lt (by rw [pllConfigured0_maxfreq]; omega)
    freq0_finite := fun _ => fIsFinite_of_lt (by rw [pllConfigured0_freq0]; omega)
    min_pos := fun _ => fgt_zero_of_toNat_pos hpos (rndCf_le hfb.le)
    freq0_ge := fun _ => fge_of_toNat_le hmin (rndCf_le (by omega))
    freq0_le := fun _ => fge_of_toNat_le hmax (rndCf_le (by omega))
    max_le_half := fun _ => fge_of_toNat_le hhalf (by decide)
    minsignal_nonneg := fun _ => fge_of_toNat_le (Nat.zero_le _) (rndCf_le hminsig)
    range_nonempty := fun _ => fge_of_toNat_le (hmin.trans hmax) (rndCf_le (by omega))
    freq_ge := fun _ => fge_of_toNat_le hmin (rndCf_le (by omega))
    freq_le := fun _ => fge_of_toNat_le hmax (rndCf_le (by omega))
    freq_finite := fun _ => fIsFinite_of_lt (by rw [pllConfigured0_freq]; omega)
    ps_finite := fun _ => fIsFinite_fZero
    pc_finite := fun _ => fIsFinite_fOne
    x1_finite := fun _ => fIsFinite_fZero
    pilot_finite := fun _ => fIsFinite_fZero
    delay_ge := fun _ => hthreshold ▸ two_le_lockDelayOf (by omega) (by omega) hb
    cnt_le := fun _ => Nat.zero_le _
    out_fits := fun _ => pllProject_fits _ _ _ _ }

/-! ## A sample -/

/-- The clamp of a finite frequency to finite, ordered limits lies between them (R224). -/
theorem pllClamp_between {u : Pll} {fu : F} (hfu : fIsFinite fu = true) (hmin : fIsFinite u.minfreq = true)
    (hmax : fIsFinite u.maxfreq = true) (hrange : fge u.maxfreq u.minfreq = true) :
    fIsFinite (pllClamp u fu) = true ∧ fge (pllClamp u fu) u.minfreq = true ∧ fge u.maxfreq (pllClamp u fu) = true := by
  unfold pllClamp
  split
  next => exact ⟨hmin, fge_refl hmin, hrange⟩
  next hbelow =>
    split
    next => exact ⟨hmax, hrange, fge_refl hmax⟩
    next habove => exact ⟨hfu, fge_of_not_fgt hfu hmin hbelow, fge_of_not_fgt hmax hfu habove⟩

theorem pllLockCount_le (u : Pll) (pilot' : F) : (pllLockCount u pilot').toNat ≤ u.lockDelay.toNat := by
  unfold pllLockCount
  split
  next => exact (Nat.mod_le _ _).trans (Nat.min_le_right _ _)
  next => exact Nat.zero_le _

theorem pllCommit_evq_length_le {u : Pll} (h : u.evq.length ≤ Config.evqDepth) (pb : Nat) (pilot' pe freq' ps' pc' : F) :
    (pllCommit pb u pilot' pe freq' ps' pc').evq.length ≤ Config.evqDepth := by
  unfold pllCommit
  dsimp only
  split
  next => exact pllPushEvent_length_le u h
  next => exact h

/-- A sample keeps the frequency in its clamp range and every running register finite (R224, R225, R227). -/
theorem pllOk_afterSample {c : Config} {u : Pll} {x : F} (hx : SampleFinite u x) (hu : PllOk c.pb u) :
    PllOk c.pb (pllAfterSample c.pb u x) := by
  have hclamp (hv : u.cfgValid = true) :=
    pllClamp_between hx.unclamped (hu.min_finite hv) (hu.max_finite hv) (hu.range_nonempty hv)
  exact { hu with
    phase_lt := phaseOfInt_lt c _
    evq_le := pllCommit_evq_length_le hu.evq_le _ _ _ _ _ _
    freq_finite := fun hv => let ⟨hfin, _, _⟩ := hclamp hv; hfin
    freq_ge := fun hv => let ⟨_, hge, _⟩ := hclamp hv; hge
    freq_le := fun hv => let ⟨_, _, hle⟩ := hclamp hv; hle
    ps_finite := fun _ => hx.sin
    pc_finite := fun _ => hx.cos
    x1_finite := fun _ => hx.phaseError
    pilot_finite := fun _ => hx.pilot
    cnt_le := fun _ => pllLockCount_le _ _
    out_fits := fun _ => pllProject_fits _ _ _ _ }

theorem pllOk_drained {pb : Nat} {u : Pll} (hu : PllOk pb u) : PllOk pb (pllDrained u) :=
  { hu with evq_le := Nat.zero_le _ }

/-- The free values of a failed configure fit the phase and the queue (R219, log 4). -/
theorem pllOk_unspecified (c : Config) (k : BitVec 4) (u : Pll) : PllOk c.pb (pllUnspecified c.pb k u) := by
  refine pllOk_of_invalid rfl ?_ ?_
  · exact (Nat.mod_le _ _).trans_lt (Nat.mod_lt _ (Nat.two_pow_pos _))
  · unfold pllUnspecified
    simp only [List.length_map, List.length_take]
    exact Nat.min_le_left _ _

theorem pll_keeps_ok {c : Config} {i : Instr} {k : BitVec 4} {f : Pll → Answer Pll} {u v : Pll}
    (hc : UnitCommand c .pll i k f) (h : Leaves (f u) v) (hu : PllOk c.pb u) : PllOk c.pb v := by
  by_cases hi : isConfiguration i
  · cases hc with
    | configure =>
      obtain ⟨hvalid, w, rfl⟩ | rfl := leaves_pllConfigure h
      · exact pllOk_configured c u w _ hvalid
      · exact pllOk_unspecified c k u
    | _ => cases hi
  · obtain rfl | ⟨x, hx, rfl⟩ | rfl := leaves_pll_running hc hi h
    · exact hu
    · exact pllOk_afterSample hx hu
    · exact pllOk_drained hu

/-- Settles O54: the parameters of the next state are those of the state, so the width of the phases is the same. -/
theorem stepKeepsPllInvariant : Obligations.StepKeepsPllInvariant := by
  unfold Obligations.StepKeepsPllInvariant
  intro s t hs h
  obtain ⟨hcfg, -⟩ := stepKeepsCounts s t h
  unfold State.pllsOk
  rw [hcfg]
  exact step_keeps_unit_invariant (κ := .pll) (fun u => pllOk_reset s.cfg.pb u.freeIx)
    (fun i k f u u' hc hl hu => pll_keeps_ok hc hl hu) h hs

end Sys2Proof.Proofs
end

section
/-!
PROOF. The words of a byte-wide transport (R67, R85), the step as the execution of a decoded command (R70, R80), and the size
and finiteness of a designed bank (R60, R145).
-/

namespace Sys2Proof.Proofs

open Sys2Proof.Machine Sys2Proof.Claims

/-! ## The transport (R67, R85) -/

/-- The bytes of a word, joined again most significant byte first (R67). -/
theorem join_wordBytes (w : Word) :
    w.extractLsb' 24 8 ++ w.extractLsb' 16 8 ++ w.extractLsb' 8 8 ++ w.extractLsb' 0 8 = w := by
  have low : w.extractLsb' 8 8 ++ w.extractLsb' 0 8 = w.extractLsb' 0 16 :=
    BitVec.extractLsb'_append_extractLsb'_eq_extractLsb' rfl
  have high : w.extractLsb' 24 8 ++ w.extractLsb' 16 8 = w.extractLsb' 16 16 :=
    BitVec.extractLsb'_append_extractLsb'_eq_extractLsb' rfl
  have whole : w.extractLsb' 16 16 ++ w.extractLsb' 0 16 = w :=
    (BitVec.extractLsb'_append_extractLsb'_eq_extractLsb' rfl).trans BitVec.extractLsb'_eq_self
  rw [high, BitVec.append_assoc, low]
  exact whole

theorem bytesOfWords_cons (w : Word) (ws : List Word) : bytesOfWords (w :: ws) = wordBytes w ++ bytesOfWords ws := rfl

theorem wordsOfBytes_bytesOfWords (ws : List Word) : wordsOfBytes (bytesOfWords ws) = some ws := by
  induction ws with
  | nil => rfl
  | cons w ws ih =>
    rw [bytesOfWords_cons]
    simp only [wordBytes, List.cons_append, List.nil_append, wordsOfBytes, ih, Option.map_some, join_wordBytes]

/-- Byte `j` of a word is its digit `j` to the base `2^8`. -/
theorem wordBytes_getD_toNat (w : Word) {j : Nat} (hj : j < 4) :
    ((wordBytes w).getD j 0#8).toNat = w.toNat / 2 ^ (8 * j) % 2 ^ 8 := by
  have byte (start : Nat) : (w.extractLsb' start 8).toNat = w.toNat / 2 ^ start % 2 ^ 8 := by
    rw [BitVec.extractLsb'_toNat, Nat.shiftRight_eq_div_pow]
  match j, hj with
  | 0, _ => exact byte 0
  | 1, _ => exact byte 8
  | 2, _ => exact byte 16
  | 3, _ => exact byte 24

theorem lowWord_eq_setWidth (v : DWord) : lowWord v = v.setWidth 32 :=
  BitVec.setWidth_eq_extractLsb' (by decide) |>.symm

theorem highWord_eq_setWidth (v : DWord) : highWord v = (v >>> 32).setWidth 32 :=
  BitVec.eq_of_toNat_eq (by simp [highWord])

theorem joinWords_lowWord_highWord (v : DWord) : joinWords (lowWord v) (highWord v) = v :=
  (BitVec.extractLsb'_append_extractLsb'_eq_extractLsb' rfl).trans BitVec.extractLsb'_eq_self

/-- Settles O5: by induction on the words for the way back, and word by word for the order of the bytes. -/
theorem transportIsLittleEndian : Obligations.TransportIsLittleEndian := by
  unfold Obligations.TransportIsLittleEndian
  refine ⟨wordsOfBytes_bytesOfWords, fun w j hj => wordBytes_getD_toNat w hj, fun v => ?_⟩
  rw [← lowWord_eq_setWidth, ← highWord_eq_setWidth]
  exact ⟨joinWords_lowWord_highWord v, rfl⟩

/-! ## The step (R70, R80) -/

theorem step_of_command {s : State} {p : Packet} {rest : List PortEvent} (h : s.input = .command p :: rest) :
    step s = runCommand p { s with input := rest } := by
  unfold step takeEvent
  rw [h]

theorem runCommand_of_decode {p : Packet} {i : Instr} (h : decode p = .command i) (s : State) :
    runCommand p s = exec i s := by
  unfold runCommand
  rw [h]

/-- Settles O6. -/
theorem stepRunsDecodedCommand : Obligations.StepRunsDecodedCommand := by
  unfold Obligations.StepRunsDecodedCommand
  intro s p rest i hinput hdecode
  rw [step_of_command hinput, runCommand_of_decode hdecode]

/-! ## The bank (R60, R145) -/

theorem finF_iff (a : F) : finF a ↔ fIsFinite a = true := by
  rw [finF, fIsFinite, fExp_eq, bne_iff_ne]

/-- Settles O25. -/
theorem bankIsCompleteAndFinite : Obligations.BankIsCompleteAndFinite := by
  unfold Obligations.BankIsCompleteAndFinite
  intro n t rate cutoff bank h
  obtain ⟨hlength, hfinite⟩ := designBank_eq_some h
  exact ⟨hlength, fun a ha => (finF_iff a).2 (hfinite a ha)⟩

end Sys2Proof.Proofs
end

section
/-!
PROOF. No step from RSMP units that meet their invariant stops (R60, R79): no answer of a unit is the fault of an element
access, since the write position lies in the ring and the convolution reads inside the bank and the ring.
-/

namespace Sys2Proof.Proofs

open Sys2Proof.Machine Sys2Proof.Claims

/-! ## Memory accesses of a unit that meets its invariant (R60, R79) -/

/-- The answer lets the machine go on: it is not the fault of R60. -/
inductive Goes {σ : Type} : Answer σ → Prop
  | done (u : σ) (fl : Flags) (ws : List Word) : Goes (.done u fl ws)
  | error (e : ErrorCode) : Goes (.error e)
  | invalid (u : σ) : Goes (.invalid u)

theorem goes_rsmpConfigured {u : Rsmp} {a : Answer Rsmp} (h : u.cfgValid = true → Goes a) :
    Goes (rsmpConfigured u a) := by
  unfold rsmpConfigured
  split
  next hv => exact h hv
  next => exact .error _

theorem goes_ncoConfigured {u : Nco} {a : Answer Nco} (h : Goes a) : Goes (ncoConfigured u a) := by
  unfold ncoConfigured
  split
  next => exact h
  next => exact .error _

theorem goes_pllConfigured {u : Pll} {a : Answer Pll} (h : Goes a) : Goes (pllConfigured u a) := by
  unfold pllConfigured
  split
  next => exact h
  next => exact .error _

theorem goes_rsmpData {u : Rsmp} {d : F} {a : Answer Rsmp} (h : u.cfgValid = true → Goes a) :
    Goes (rsmpData u d a) :=
  goes_rsmpConfigured fun hv => by
    split
    next => exact .error _
    next => exact h hv

/-- A configured unit that meets its invariant. -/
structure RsmpReady (u : Rsmp) : Prop where
  valid : u.cfgValid = true
  ok : RsmpOk u

/-- The write position of a consumption lies in the ring (R26, R28, R148). -/
theorem rsmpConsume_of_ready {u : Rsmp} (x : Cplx) (hu : RsmpReady u) :
    ∃ v, rsmpConsume u x = some v ∧ RsmpReady v ∧ v.phaseSteps = u.phaseSteps := by
  have hring : u.ring.length = u.ntaps.toNat := by simpa [Memory.wf] using hu.ok.ring_wf hu.valid
  obtain ⟨v, hx⟩ : ∃ v, rsmpConsume u x = some v := by
    unfold rsmpConsume
    dsimp only
    rw [memWrite_of_lt x (hring ▸ wpos_back_lt (hu.ok.wpos_lt hu.valid))]
    exact ⟨_, rfl⟩
  refine ⟨v, hx, ⟨?_, rsmpConsume_keeps_ok hx hu.ok⟩, ?_⟩ <;> obtain ⟨w, -, -, rfl⟩ := rsmpConsume_eq_some hx
  · exact hu.valid
  · rfl

/-- Element `i` of row `p` of a bank lies in it (R62). -/
theorem bank_index_lt {p i n t : Nat} (hp : p < n) (hi : i < t) : p * t + i < n * t :=
  calc p * t + i < p * t + t := Nat.add_lt_add_left hi _
    _ = (p + 1) * t := (Nat.succ_mul p t).symm
    _ ≤ n * t := Nat.mul_le_mul_right t hp

/-- The chain reads inside the bank and the ring at every tap (R152, R153). -/
theorem convolveFrom_of_ready {u : Rsmp} {p : Nat} (hu : RsmpReady u) (hp : p < u.phaseSteps.toNat) {left i : Nat}
    (hi : i + left ≤ u.ntaps.toNat) (acc : Cplx) : ∃ y, convolveFrom u p left i acc = some y := by
  induction left generalizing i acc with
  | zero => exact ⟨acc, rfl⟩
  | succ left ih =>
    obtain ⟨t, ht, -⟩ := memRead_of_wf (hu.ok.taps_wf hu.valid) (bank_index_lt hp (show i < u.ntaps.toNat by omega))
    obtain ⟨x, hx, -⟩ :=
      memRead_of_wf (hu.ok.ring_wf hu.valid) (Nat.mod_lt (u.wpos.toNat + i) (hu.ok.ntaps_pos hu.valid))
    unfold convolveFrom
    rw [ht, hx]
    exact ih (by omega) _

theorem convolve_of_ready {u : Rsmp} {p : Nat} (hu : RsmpReady u) (hp : p < u.phaseSteps.toNat) :
    ∃ y, convolve u p = some y :=
  convolveFrom_of_ready hu hp (by omega) Cplx.zero

theorem goes_rsmpOutput {u : Rsmp} {p : Nat} (hu : RsmpReady u) (hp : p < u.phaseSteps.toNat) (d : F) (b : Bool) :
    Goes (rsmpOutput u d p b) := by
  obtain ⟨y, hy⟩ := convolve_of_ready hu hp
  rw [rsmpOutput, hy]
  exact .done ..

theorem goes_rsmpResampleOutput {u : Rsmp} (hu : RsmpReady u) (d : F) (b : Bool) : Goes (rsmpResampleOutput u d b) := by
  unfold rsmpResampleOutput
  split
  next => exact .error _
  next p hp => exact goes_rsmpOutput hu (phaseIndex_lt hp) d b

theorem goes_rsmpCreate (k : BitVec 4) (n t : Word) (rate cutoff : CF) (u : Rsmp) :
    Goes (rsmpCreateAnswer k n t rate cutoff u) := by
  unfold rsmpCreateAnswer
  split
  next =>
    split
    next => exact .done ..
    next => exact .invalid _
  next => exact .invalid _

theorem goes_rsmpDecimate {u : Rsmp} (hu : RsmpOk u) (d : F) (x : Cplx) : Goes (rsmpDecimateAnswer d x u) := by
  refine goes_rsmpData fun hv => ?_
  obtain ⟨v, hx, hvReady, hsteps⟩ := rsmpConsume_of_ready x ⟨hv, hu⟩
  dsimp only
  rw [hx]
  dsimp only
  split
  next => exact .done ..
  next =>
    split
    next => exact .error _
    next p hp => exact goes_rsmpOutput hvReady (hsteps ▸ phaseIndex_lt hp) _ _

theorem goes_rsmpInterpolate {u : Rsmp} (hu : RsmpOk u) (d : F) (x : Cplx) : Goes (rsmpInterpolateAnswer d x u) := by
  refine goes_rsmpData fun hv => ?_
  obtain ⟨v, hx, hvReady, hsteps⟩ := rsmpConsume_of_ready x ⟨hv, hu⟩
  dsimp only
  split
  next => exact .error _
  next p hp =>
    by_cases hc : fge d fOne = true
    · rw [if_pos hc, hx]
      exact goes_rsmpOutput hvReady (hsteps ▸ phaseIndex_lt hp) _ _
    · rw [if_neg hc]
      exact goes_rsmpOutput ⟨hv, hu⟩ (phaseIndex_lt hp) _ _

theorem goes_rsmpResample {u : Rsmp} (hu : RsmpOk u) (cin : Bool) (d : F) (x : Cplx) :
    Goes (rsmpResampleAnswer cin d x u) := by
  refine goes_rsmpData fun hv => ?_
  obtain ⟨v, hx, hvReady, -⟩ := rsmpConsume_of_ready x ⟨hv, hu⟩
  split
  next =>
    split
    next => exact .done ..
    next =>
      rw [hx]
      dsimp only
      split
      next => exact .done ..
      next => exact goes_rsmpResampleOutput hvReady _ _
  next => exact goes_rsmpResampleOutput ⟨hv, hu⟩ _ _

theorem goes_rsmpRdtap {u : Rsmp} (hu : RsmpOk u) (p : BitVec 16) (j : Word) : Goes (rsmpRdtapAnswer p j u) := by
  refine goes_rsmpConfigured fun hv => ?_
  split
  next => exact .error _
  next hin =>
    obtain ⟨hp, hj⟩ := not_or.1 hin
    obtain ⟨t, ht, -⟩ := memRead_of_wf (hu.taps_wf hv) (bank_index_lt (not_le.1 hp) (not_le.1 hj))
    rw [ht]
    exact .done ..

/-- No RSMP command forms an index outside a memory space of its unit (R79). -/
theorem goes_rsmp {c : Config} {i : Instr} {k : BitVec 4} {f : Rsmp → Answer Rsmp} (hc : UnitCommand c .rsmp i k f)
    {u : Rsmp} (hu : RsmpOk u) : Goes (f u) := by
  cases hc with
  | create => exact goes_rsmpCreate _ _ _ _ _ u
  | decimate => exact goes_rsmpDecimate hu _ _
  | interpolate => exact goes_rsmpInterpolate hu _ _
  | resample => exact goes_rsmpResample hu _ _ _
  | rdtap => exact goes_rsmpRdtap hu _ _

/-- The NCO has no memory space of its own to read outside of. -/
theorem goes_nco {c : Config} {i : Instr} {k : BitVec 4} {f : Nco → Answer Nco} (hc : UnitCommand c .nco i k f)
    (u : Nco) : Goes (f u) := by
  cases hc with
  | setfreq =>
    unfold ncoSetfreqAnswer
    split
    next => exact .done ..
    next => exact .invalid _
  | nextphase | get | getiq | next | nextiq => exact goes_ncoConfigured (.done ..)

theorem goes_pllConfigure (pb : Nat) (k : BitVec 4) (even : Bool) (var : BitVec 2) (freq bw minsig : CF) (u : Pll) :
    Goes (pllConfigureAnswer pb k even var freq bw minsig u) := by
  unfold pllConfigureAnswer
  split
  next => exact .error _
  next =>
    split
    next => exact .done ..
    next => exact .invalid _

theorem goes_pllProcess (c : Config) (x : F) (u : Pll) : Goes (pllProcessAnswer c x u) := by
  unfold pllProcessAnswer
  dsimp only
  split
  next => exact .error _
  next =>
    split
    next => exact .error _
    next =>
      split
      next => exact .error _
      next => exact .done ..

/-- The event queue of a PLL is appended to and drained, never indexed. -/
theorem goes_pll {c : Config} {i : Instr} {k : BitVec 4} {f : Pll → Answer Pll} (hc : UnitCommand c .pll i k f)
    (u : Pll) : Goes (f u) := by
  cases hc with
  | configure => exact goes_pllConfigure ..
  | process => exact goes_pllConfigured (goes_pllProcess c _ u)
  | locked | pilotlevel | getout | evdrain => exact goes_pllConfigured (.done ..)

/-! ## No step stops (R79) -/

theorem settleAnswer_of_goes {κ : Kind} {a : Answer (UnitOf κ)} (h : Goes a) (k : BitVec 4) (s : State) :
    ∃ t, settleAnswer κ k s a = .next t := by
  cases h <;> exact ⟨_, rfl⟩

theorem onUnit_of_goes {κ : Kind} {k : BitVec 4} {s : State} {f : UnitOf κ → Answer (UnitOf κ)}
    (h : ∀ u ∈ units κ s, Goes (f u)) : ∃ t, onUnit κ k s f = .next t := by
  cases hk : (units κ s)[k.toNat]? with
  | none => exact ⟨_, onUnit_of_none f hk⟩
  | some u =>
    rw [onUnit_of_some f hk]
    exact settleAnswer_of_goes (h u (List.mem_of_getElem? hk)) k s

theorem exec_of_rsmpsOk {s : State} (hs : s.rsmpsOk) (i : Instr) : ∃ t, exec i s = .next t := by
  obtain ⟨-, hi⟩ | ⟨ws, hi⟩ | ⟨κ, k, f, hc, hi⟩ := exec_cases i s <;> rw [hi]
  · exact ⟨_, rfl⟩
  · exact ⟨_, rfl⟩
  · refine onUnit_of_goes fun u hu => ?_
    cases κ with
    | rsmp => exact goes_rsmp hc (hs u hu)
    | nco => exact goes_nco hc u
    | pll => exact goes_pll hc u

/-- Settles O9: every element access of a command lies in its memory space, by induction over the taps for the convolution,
so every answer of a unit leads to a next state. -/
theorem stepNeverStops : Obligations.StepNeverStops := by
  unfold Obligations.StepNeverStops State.stepsSafely
  intro s hs
  unfold step takeEvent
  split
  next => exact ⟨_, rfl⟩
  next p rest _ =>
    unfold runCommand
    split
    next i _ =>
      have hrest : State.rsmpsOk { s with input := rest } := hs
      exact exec_of_rsmpsOk hrest i
    next => exact ⟨_, rfl⟩
  next => exact ⟨_, rfl⟩

end Sys2Proof.Proofs
end

section
/-!
PROOF. Two commands to different units commute (R78): what two runs of one command have in common, and what a command leaves
as it was (R20), determine the state after both orders.
-/

namespace Sys2Proof.Proofs

open Sys2Proof.Machine Sys2Proof.Claims

/-! ## Commands to different units (R20, R78) -/

/-- Two runs of an operation on the same unit set the same bits of `ERRFLAGS`. -/
theorem onUnit_errFlags_sameAt {κ : Kind} {k : BitVec 4} {s s' t t' : State} {f : UnitOf κ → Answer (UnitOf κ)}
    (hs : (units κ s)[k.toNat]? = (units κ s')[k.toNat]?) (h : onUnit κ k s f = .next t)
    (h' : onUnit κ k s' f = .next t') :
    ∃ m, t.errFlags = s.errFlags ||| m ∧ t'.errFlags = s'.errFlags ||| m := by
  cases hk : (units κ s)[k.toNat]? with
  | none =>
    rw [onUnit_of_none f hk] at h
    rw [onUnit_of_none f (hs ▸ hk)] at h'
    cases h
    cases h'
    exact ⟨_, rfl, rfl⟩
  | some u =>
    rw [onUnit_of_some f hk] at h
    rw [onUnit_of_some f (hs ▸ hk)] at h'
    cases hf : f u with
    | done u' fl ws =>
      rw [hf] at h h'
      cases h
      cases h'
      exact ⟨0#32, by simp, by simp⟩
    | error e =>
      rw [hf] at h h'
      cases h
      cases h'
      exact ⟨e.flag, rfl, rfl⟩
    | invalid u' =>
      rw [hf] at h h'
      cases h
      cases h'
      exact ⟨ErrorCode.invalidConfiguration.flag, by simp, by simp⟩
    | stop x =>
      rw [hf] at h
      cases h

/-- What two runs of one command to a unit have in common when they start from states that agree there and in the parameters
(R20). -/
structure SameRun (x : Kind × Nat) (s t s' t' : State) : Prop where
  response : t'.response = t.response
  unit : sameAt x t t'
  flags : ∃ m, t.errFlags = s.errFlags ||| m ∧ t'.errFlags = s'.errFlags ||| m

theorem exec_sameRun {i : Instr} {x : Kind × Nat} {s t s' : State} (hx : target i = some x) (hcfg : s.cfg = s'.cfg)
    (hsame : sameAt x s s') (h : exec i s = .next t) : ∃ t', exec i s' = .next t' ∧ SameRun x s t s' t' := by
  obtain ⟨-, -, -, t', ht', hresponse, hunit⟩ := commandSeesOnlyItsUnit i x s s' t hx hcfg hsame h
  obtain ⟨κ, k, f, rfl, hc⟩ := unitCommand_of_target s.cfg hx
  have hi : onUnit κ k s f = .next t := (exec_of_unitCommand hc).symm.trans h
  have hi' : onUnit κ k s' f = .next t' := (exec_of_unitCommand (hcfg ▸ hc)).symm.trans ht'
  exact ⟨t', ht', hresponse, hunit, onUnit_errFlags_sameAt ((sameAt_iff _ _ _ _).1 hsame) hi hi'⟩

/-- What a command to a unit leaves as it was (R20). -/
structure Framed (x : Kind × Nat) (s t : State) : Prop where
  cfg : t.cfg = s.cfg
  input : t.input = s.input
  others : ∀ y, y ≠ x → sameAt y s t

theorem exec_framed {i : Instr} {x : Kind × Nat} {s t : State} (hx : target i = some x) (h : exec i s = .next t) :
    Framed x s t := by
  obtain ⟨κ, k, f, rfl, hc⟩ := unitCommand_of_target s.cfg hx
  rw [exec_of_unitCommand hc] at h
  obtain ⟨hcfg, hinput, hothers⟩ := onUnit_frame h
  exact ⟨hcfg, hinput, hothers⟩

theorem sameAt_symm {x : Kind × Nat} {s t : State} (h : sameAt x s t) : sameAt x t s :=
  (sameAt_iff ..).2 ((sameAt_iff ..).1 h).symm

theorem sameAt_trans {x : Kind × Nat} {s t r : State} (h : sameAt x s t) (h' : sameAt x t r) : sameAt x s r :=
  (sameAt_iff ..).2 (((sameAt_iff ..).1 h).trans ((sameAt_iff ..).1 h'))

/-- A state is determined by its parameters, its units, `ERRFLAGS` and the port. -/
theorem state_ext_sameAt {s t : State} (hcfg : s.cfg = t.cfg) (hunits : ∀ x, sameAt x s t)
    (hflags : s.errFlags = t.errFlags) (hinput : s.input = t.input) (hresponse : s.response = t.response) : s = t := by
  have same (κ : Kind) : units κ s = units κ t := List.ext_getElem? fun n => (sameAt_iff κ n s t).1 (hunits (κ, n))
  have hrsmp : s.rsmp = t.rsmp := same .rsmp
  have hnco : s.nco = t.nco := same .nco
  have hpll : s.pll = t.pll := same .pll
  cases s
  cases t
  simp_all only

/-- Settles O57: in the other order each command meets its unit and the parameters as they were, so it does to its unit, to
`ERRFLAGS` and in its response what it did before. -/
theorem commandsToDifferentUnitsCommute : Obligations.CommandsToDifferentUnitsCommute := by
  unfold Obligations.CommandsToDifferentUnitsCommute
  intro i j x y s a b hi hj hxy hsa hab
  have fsa := exec_framed hi hsa
  have fab := exec_framed hj hab
  obtain ⟨c, hsc, rj⟩ := exec_sameRun hj fsa.cfg (sameAt_symm (fsa.others y hxy.symm)) hab
  have fsc := exec_framed hj hsc
  obtain ⟨d, hcd, ri⟩ := exec_sameRun hi fsc.cfg.symm (fsc.others x hxy) hsa
  have fcd := exec_framed hi hcd
  obtain ⟨mj, hbFlags, hcFlags⟩ := rj.flags
  obtain ⟨mi, haFlags, hdFlags⟩ := ri.flags
  have hunits (z : Kind × Nat) : sameAt z d b := by
    by_cases hzx : z = x
    · subst hzx
      exact sameAt_trans (sameAt_symm ri.unit) (fab.others z hxy)
    · have hdc : sameAt z d c := sameAt_symm (fcd.others z hzx)
      by_cases hzy : z = y
      · subst hzy
        exact sameAt_trans hdc (sameAt_symm rj.unit)
      · exact sameAt_trans hdc (sameAt_trans (sameAt_symm (fsc.others z hzy))
          (sameAt_trans (fsa.others z hzx) (fab.others z hzy)))
  have hflags : d.errFlags = b.errFlags := by
    rw [hdFlags, hcFlags, hbFlags, haFlags, BitVec.or_assoc, BitVec.or_assoc, BitVec.or_comm mj]
  refine ⟨c, d, hsc, hcd, rj.response, state_ext_sameAt ?_ hunits hflags ?_ ri.response⟩
  · exact fcd.cfg.trans (fsc.cfg.trans (fab.cfg.trans fsa.cfg).symm)
  · exact fcd.input.trans (fsc.input.trans (fab.input.trans fsa.input).symm)

end Sys2Proof.Proofs
end

section
/-!
PROOF. The symmetries of the cosine table (R66), read off the list of its entries, and the value of a pattern with its sign
flipped (R111, R113).
-/

namespace Sys2Proof.Proofs

open Sys2Proof.Machine Sys2Proof.Claims

/-! ## The entries of the table in index order (R65, R66) -/

/-- The patterns of the table, row after row. -/
def cosEntries : List Nat := cosRows.flatten

/-- Element `i` of rows of `m` elements each is element `i % m` of row `i / m`. -/
theorem flatten_getElem? {α : Type} {m : Nat} (hm : 0 < m) {rows : List (List α)} (hrows : ∀ r ∈ rows, r.length = m)
    (i : Nat) : rows.flatten[i]? = rows[i / m]?.bind (·[i % m]?) := by
  induction rows generalizing i with
  | nil => rfl
  | cons r rows ih =>
    obtain ⟨hr, hrest⟩ := List.forall_mem_cons.1 hrows
    rw [List.flatten_cons]
    obtain hlt | hge := Nat.lt_or_ge i m
    · rw [List.getElem?_append_left (hr ▸ hlt), Nat.div_eq_of_lt hlt, Nat.mod_eq_of_lt hlt]
      rfl
    · obtain ⟨j, rfl⟩ := Nat.exists_eq_add_of_le' hge
      rw [List.getElem?_append_right (hr ▸ hge), hr, Nat.add_sub_cancel, ih hrest, Nat.add_div_right _ hm,
        Nat.add_mod_right]
      rfl

theorem cosRows_length : ∀ r ∈ cosRows, r.length = 64 := by
  have checked : (cosRows.all fun r => r.length == 64) = true := by decide +kernel
  exact fun r hr => eq_of_beq (List.all_eq_true.1 checked r hr)

theorem cosEntries_length : cosEntries.length = 4096 := by decide +kernel

theorem cosRead_eq (i : Nat) : cosRead i = BitVec.ofNat 32 (cosEntries[i]?.getD 0) := by
  rw [cosEntries, flatten_getElem? (by decide : 0 < 64) cosRows_length, cosRead, List.getD_eq_getElem?_getD,
    List.getD_eq_getElem?_getD]
  cases cosRows[i / 64]? <;> rfl

/-! ## Its symmetries (R66) -/

/-- The table from entry 1 on reads the same backwards. -/
theorem cosEntries_tail_reverse : cosEntries.tail.reverse = cosEntries.tail :=
  eq_of_beq (by decide +kernel)

/-- The second half of the table is the first with the sign bits flipped, but for the zero, which is `+0.0` in both. -/
theorem cosEntries_drop : cosEntries.drop 2048 = ((cosEntries.take 2048).map (· ^^^ 0x80000000)).set 1024 0 :=
  eq_of_beq (by decide +kernel)

theorem cosRead_reflect {i : Nat} (hpos : 0 < i) (hlt : i < 4096) : cosRead (4096 - i) = cosRead i := by
  have htail : cosEntries.tail.length = 4095 := by rw [List.length_tail, cosEntries_length]
  have tailEntry (j : Nat) : cosEntries.tail[j]? = cosEntries[j + 1]? := List.getElem?_tail
  have mirrored : cosEntries[4096 - i]? = cosEntries[i]? :=
    calc cosEntries[4096 - i]? = cosEntries.tail[4095 - i]? := by
          rw [tailEntry]
          congr 1
          omega
      _ = cosEntries.tail.reverse[i - 1]? := by
          rw [List.getElem?_reverse (by omega), htail]
          congr 1
          omega
      _ = cosEntries[i]? := by
          rw [cosEntries_tail_reverse, tailEntry, Nat.sub_add_cancel hpos]
  rw [cosRead_eq, cosRead_eq, mirrored]

theorem cosRead_add_half {i : Nat} (hlt : i < 2048) (hne : i ≠ 1024) : cosRead (i + 2048) = fneg (cosRead i) := by
  have hentry : i < cosEntries.length := by
    rw [cosEntries_length]
    omega
  have flipped : cosEntries[i + 2048]? = cosEntries[i]?.map (· ^^^ 0x80000000) :=
    calc cosEntries[i + 2048]? = (cosEntries.drop 2048)[i]? := by rw [List.getElem?_drop, Nat.add_comm]
      _ = cosEntries[i]?.map (· ^^^ 0x80000000) := by
          rw [cosEntries_drop, List.getElem?_set_ne hne.symm, List.getElem?_map, List.getElem?_take_of_lt hlt]
  rw [cosRead_eq, cosRead_eq, flipped, List.getElem?_eq_getElem hentry]
  exact BitVec.ofNat_xor

/-- Settles O44. -/
theorem cosineTableSymmetries : Obligations.CosineTableSymmetries := by
  unfold Obligations.CosineTableSymmetries
  exact ⟨by decide +kernel, by decide +kernel, by decide +kernel, by decide +kernel, fun i => cosRead_reflect,
    fun i => cosRead_add_half⟩

/-! ## Values (R111) -/

theorem fSign_iff (a : F) : fSign a = true ↔ a.toNat / 2 ^ 31 = 1 := by
  have hlt : a.toNat < 2 ^ 32 := a.isLt
  rw [fSign, BitVec.getLsbD, Nat.testBit_eq_decide_div_mod_eq, decide_eq_true_eq]
  omega

/-- The value of the statements is the number of units that the machine computes with. -/
theorem valF_eq_fScaled (a : F) : valF a = (fScaled a : ℚ) / 2 ^ 149 := by
  have magnitude :
      (if fExp a = 0 then (fFrac a : ℚ) / 2 ^ 149 else ((2 ^ 23 + fFrac a : Nat) : ℚ) * 2 ^ fExp a / 2 ^ 150) =
      (fMag a : ℚ) / 2 ^ 149 := by
    unfold fMag
    split
    next => rfl
    next hne =>
      obtain ⟨e, he⟩ : ∃ e, fExp a = e + 1 := Nat.exists_eq_succ_of_ne_zero hne
      rw [he, Nat.add_sub_cancel]
      push_cast
      ring
  unfold valF fScaled
  dsimp only
  rw [← fExp_eq, ← fFrac_eq, magnitude]
  by_cases hs : a.toNat / 2 ^ 31 = 1
  · rw [if_pos hs, if_pos ((fSign_iff a).2 hs)]
    push_cast
    ring
  · rw [if_neg hs, if_neg (mt (fSign_iff a).1 hs)]
    push_cast
    ring

theorem fSign_fneg (a : F) : fSign (fneg a) = !fSign a := by
  rw [fSign, fneg, BitVec.getLsbD_xor, fSign]
  exact Bool.xor_true _

theorem fMag_fneg (a : F) : fMag (fneg a) = fMag a := by
  have hexp : fExp (fneg a) = fExp a := by
    have hmask : fNegZero.extractLsb' 23 8 = 0#8 := by decide
    rw [fExp, fneg, BitVec.extractLsb'_xor, hmask, BitVec.xor_zero, fExp]
  have hfrac : fFrac (fneg a) = fFrac a := by
    have hmask : fNegZero.extractLsb' 0 23 = 0#23 := by decide
    rw [fFrac, fneg, BitVec.extractLsb'_xor, hmask, BitVec.xor_zero, fFrac]
  unfold fMag
  rw [hexp, hfrac]

theorem fScaled_fneg (a : F) : fScaled (fneg a) = -fScaled a := by
  unfold fScaled
  rw [fSign_fneg, fMag_fneg]
  cases fSign a <;> simp

theorem valF_fneg (a : F) : valF (fneg a) = -valF a := by
  rw [valF_eq_fScaled, valF_eq_fScaled, fScaled_fneg]
  push_cast
  ring

end Sys2Proof.Proofs
end

section
/-!
PROOF. The turns of a point by the angle from one table entry to the next (R66), in whole units of 2^-149: each rounds its
coordinates down, and over a quarter turn the point stays within 2^-37 of the unit circle's.
-/

namespace Sys2Proof.Proofs

open Sys2Proof.Machine Sys2Proof.Claims

/-! ## Turning a point of the unit circle by one entry's angle (R66) -/

/-- The angle from one entry of the table to the next. -/
noncomputable def entryAngle : ℝ := 2 * Real.pi / 4096

/-- The number of units of `fScaled` in 1. -/
def fScaledOne : Int := 2 ^ 149

theorem fScaledOne_pos : (0 : ℝ) < fScaledOne := by
  norm_num [fScaledOne]

/-- The cosine and the sine of `entryAngle` in units of 2^-149, rounded towards zero. -/
def entryTurn : Int × Int :=
  (0x1ffffd88586ee646bd93c5ceb96a4be5705f62, 0xc90fd57732396c235a3af6ac410694193b4)

/-- A point in units of 2^-149, turned by `entryTurn`. -/
def turnPoint (z : Int × Int) : Int × Int :=
  ((z.1 * entryTurn.1 - z.2 * entryTurn.2) / fScaledOne, (z.2 * entryTurn.1 + z.1 * entryTurn.2) / fScaledOne)

/-- A point in units of 2^-149 as a complex number. -/
noncomputable def pointOf (z : Int × Int) : ℂ := ⟨z.1 / fScaledOne, z.2 / fScaledOne⟩

/-- A product of two numbers of units, brought back to the unit by rounding down, is less than a unit below the real one. -/
theorem abs_ediv_div_sub_le (n : ℤ) {d : ℤ} (hd : 0 < d) : |((n / d : ℤ) : ℝ) / d - n / (d * d)| ≤ 1 / d := by
  have hdR : (0 : ℝ) < d := by exact_mod_cast hd
  have hn : (n : ℝ) = d * (n / d : ℤ) + (n % d : ℤ) := by exact_mod_cast (Int.mul_ediv_add_emod n d).symm
  have hr : (0 : ℝ) ≤ (n % d : ℤ) := by exact_mod_cast Int.emod_nonneg n hd.ne'
  have hr' : ((n % d : ℤ) : ℝ) ≤ d := by exact_mod_cast (Int.emod_lt_of_pos n hd).le
  have hrest : ((n / d : ℤ) : ℝ) / d - n / (d * d) = -((n % d : ℤ) / d / d) := by
    rw [hn]
    field_simp
    ring
  rw [hrest, abs_neg, abs_of_nonneg (by positivity)]
  exact div_le_div_of_nonneg_right ((div_le_one hdR).2 hr') hdR.le

/-- A turn of a point is the complex product up to the rounding of its two coordinates. -/
theorem pointOf_turnPoint_near (z : Int × Int) :
    ‖pointOf (turnPoint z) - pointOf z * pointOf entryTurn‖ ≤ 2 / fScaledOne := by
  have hpos : (0 : ℤ) < fScaledOne := by exact_mod_cast fScaledOne_pos
  have re_eq : (pointOf z * pointOf entryTurn).re =
      ((z.1 * entryTurn.1 - z.2 * entryTurn.2 : ℤ) : ℝ) / (fScaledOne * fScaledOne) := by
    simp only [pointOf, Complex.mul_re]
    push_cast
    ring
  have im_eq : (pointOf z * pointOf entryTurn).im =
      ((z.2 * entryTurn.1 + z.1 * entryTurn.2 : ℤ) : ℝ) / (fScaledOne * fScaledOne) := by
    simp only [pointOf, Complex.mul_im]
    push_cast
    ring
  refine (Complex.norm_le_abs_re_add_abs_im _).trans ?_
  rw [Complex.sub_re, Complex.sub_im, re_eq, im_eq, ← one_add_one_eq_two, add_div]
  exact add_le_add (abs_ediv_div_sub_le _ hpos) (abs_ediv_div_sub_le _ hpos)

theorem norm_entryTurn_le_one : ‖pointOf entryTurn‖ ≤ 1 := by
  have hsq : ‖pointOf entryTurn‖ ^ 2 ≤ 1 := by
    rw [← Complex.normSq_eq_norm_sq, Complex.normSq_apply]
    norm_num [pointOf, entryTurn, fScaledOne]
  nlinarith [norm_nonneg (pointOf entryTurn)]

/-- `entryAngle` to 20 decimals of π. -/
noncomputable def entryAngleApprox : ℝ := 3.14159265358979323846 / 2048

theorem entryAngle_near : |entryAngle - entryAngleApprox| ≤ 1 / 2 ^ 60 := by
  have hlo := Real.pi_gt_d20
  have hhi := Real.pi_lt_d20
  unfold entryAngle entryAngleApprox
  rw [abs_le]
  constructor <;> linarith

theorem norm_exp_sub_exp_le (x y : ℝ) : ‖Complex.exp (x * Complex.I) - Complex.exp (y * Complex.I)‖ ≤ |x - y| := by
  have hfactor : Complex.exp (x * Complex.I) - Complex.exp (y * Complex.I) =
      Complex.exp (y * Complex.I) * (Complex.exp (Complex.I * ((x - y : ℝ) : ℂ)) - 1) := by
    rw [mul_sub, mul_one, ← Complex.exp_add]
    push_cast
    ring_nf
  rw [hfactor, norm_mul, Complex.norm_exp_ofReal_mul_I, one_mul]
  exact Real.norm_exp_I_mul_ofReal_sub_one_le

/-- Five terms of the exponential series at an imaginary argument. -/
theorem sum_exp_series_five (t : ℝ) :
    ∑ m ∈ Finset.range 5, (t * Complex.I) ^ m / (m.factorial : ℂ) =
      ⟨1 - t ^ 2 / 2 + t ^ 4 / 24, t - t ^ 3 / 6⟩ := by
  have hI3 : Complex.I ^ 3 = -Complex.I := Complex.I_pow_three
  have hI4 : Complex.I ^ 4 = 1 := Complex.I_pow_four
  have hsum : ∑ m ∈ Finset.range 5, (t * Complex.I) ^ m / (m.factorial : ℂ) =
      ((1 - t ^ 2 / 2 + t ^ 4 / 24 : ℝ) : ℂ) + ((t - t ^ 3 / 6 : ℝ) : ℂ) * Complex.I := by
    simp only [Finset.sum_range_succ, Finset.sum_range_zero, mul_pow, Complex.I_sq, hI3, hI4, Nat.factorial]
    push_cast
    ring
  rw [hsum, ← Complex.mk_eq_add_mul_I]

/-- `entryTurn` is the turn by `entryAngle`: the series at the approximate angle is near both. -/
theorem entryTurn_near : ‖pointOf entryTurn - Complex.exp (entryAngle * Complex.I)‖ ≤ 1 / 2 ^ 48 := by
  set t : ℝ := entryAngleApprox with ht
  set series : ℂ := ∑ m ∈ Finset.range 5, (t * Complex.I) ^ m / (m.factorial : ℂ) with hseries
  have hnorm : ‖(t : ℂ) * Complex.I‖ = t := by
    rw [norm_mul, Complex.norm_I, mul_one, Complex.norm_real, Real.norm_of_nonneg]
    norm_num [ht, entryAngleApprox]
  have remainder : ‖Complex.exp (t * Complex.I) - series‖ ≤ 1 / 2 ^ 50 := by
    refine (Complex.exp_bound (by norm_num [hnorm, ht, entryAngleApprox]) (by norm_num)).trans ?_
    rw [hnorm]
    norm_num [ht, entryAngleApprox, Nat.factorial]
  have terms : ‖pointOf entryTurn - series‖ ≤ 1 / 2 ^ 50 := by
    refine (Complex.norm_le_abs_re_add_abs_im _).trans ?_
    rw [hseries, sum_exp_series_five, Complex.sub_re, Complex.sub_im]
    norm_num [pointOf, entryTurn, fScaledOne, ht, entryAngleApprox, abs_le]
  have angle : ‖Complex.exp (t * Complex.I) - Complex.exp (entryAngle * Complex.I)‖ ≤ 1 / 2 ^ 60 := by
    refine (norm_exp_sub_exp_le t entryAngle).trans ?_
    rw [abs_sub_comm]
    exact entryAngle_near
  calc ‖pointOf entryTurn - Complex.exp (entryAngle * Complex.I)‖
      = ‖(pointOf entryTurn - series) - (Complex.exp (t * Complex.I) - series) +
          (Complex.exp (t * Complex.I) - Complex.exp (entryAngle * Complex.I))‖ := by
        congr 1
        ring
    _ ≤ ‖pointOf entryTurn - series‖ + ‖Complex.exp (t * Complex.I) - series‖ +
          ‖Complex.exp (t * Complex.I) - Complex.exp (entryAngle * Complex.I)‖ :=
        (norm_add_le _ _).trans (by gcongr; exact norm_sub_le _ _)
    _ ≤ 1 / 2 ^ 50 + 1 / 2 ^ 50 + 1 / 2 ^ 60 := by gcongr
    _ ≤ 1 / 2 ^ 48 := by norm_num

/-- The errors of the turns add up: each adds its own to that of the point it turns. -/
theorem pointOf_iterate_near (k : Nat) :
    ‖pointOf (turnPoint^[k] (fScaledOne, 0)) - Complex.exp ((k * entryAngle : ℝ) * Complex.I)‖ ≤ k / 2 ^ 47 := by
  induction k with
  | zero =>
    have hone : pointOf (fScaledOne, 0) = 1 := by
      apply Complex.ext <;> simp [pointOf, fScaledOne_pos.ne']
    rw [Function.iterate_zero_apply, hone]
    simp
  | succ k ih =>
    set z := turnPoint^[k] (fScaledOne, 0) with hz
    set e := Complex.exp ((k * entryAngle : ℝ) * Complex.I) with he
    set w := Complex.exp (entryAngle * Complex.I) with hw
    have hnorm : ‖e‖ = 1 := Complex.norm_exp_ofReal_mul_I _
    have hadd : Complex.exp (((k + 1 : ℕ) * entryAngle : ℝ) * Complex.I) = e * w := by
      rw [he, hw, ← Complex.exp_add]
      push_cast
      ring_nf
    have hrounding : (2 : ℝ) / fScaledOne ≤ 1 / 2 ^ 48 := by norm_num [fScaledOne]
    rw [Function.iterate_succ_apply', ← hz, hadd]
    calc ‖pointOf (turnPoint z) - e * w‖
        = ‖(pointOf (turnPoint z) - pointOf z * pointOf entryTurn) + (pointOf z - e) * pointOf entryTurn +
            e * (pointOf entryTurn - w)‖ := by
          congr 1
          ring
      _ ≤ ‖pointOf (turnPoint z) - pointOf z * pointOf entryTurn‖ + ‖pointOf z - e‖ * ‖pointOf entryTurn‖ +
            ‖e‖ * ‖pointOf entryTurn - w‖ := by
          rw [← norm_mul, ← norm_mul]
          exact norm_add₃_le
      _ ≤ 1 / 2 ^ 48 + k / 2 ^ 47 * 1 + 1 * (1 / 2 ^ 48) := by
          rw [hnorm]
          gcongr
          · exact (pointOf_turnPoint_near z).trans hrounding
          · exact norm_entryTurn_le_one
          · exact entryTurn_near
      _ = (k + 1 : ℕ) / 2 ^ 47 := by
          push_cast
          ring

/-- The first coordinate of a turned point is the cosine of its angle, to within 2^112 units in the first quadrant. -/
theorem iterate_fst_near {k : Nat} (hk : k < 1024) :
    |((turnPoint^[k] (fScaledOne, 0)).1 : ℝ) - fScaledOne * Real.cos (k * entryAngle)| ≤ 2 ^ 112 := by
  set z := turnPoint^[k] (fScaledOne, 0) with hz
  have hre : |(z.1 : ℝ) / fScaledOne - Real.cos (k * entryAngle)| ≤ k / 2 ^ 47 := by
    have h := (Complex.abs_re_le_norm _).trans (pointOf_iterate_near k)
    rwa [Complex.sub_re, Complex.exp_ofReal_mul_I_re] at h
  have hk' : (k : ℝ) ≤ 1024 := by exact_mod_cast hk.le
  have hscale : (z.1 : ℝ) - fScaledOne * Real.cos (k * entryAngle) =
      fScaledOne * (z.1 / fScaledOne - Real.cos (k * entryAngle)) := by
    rw [mul_sub, mul_div_cancel₀ _ fScaledOne_pos.ne']
  rw [hscale, abs_mul, abs_of_pos fScaledOne_pos]
  calc (fScaledOne : ℝ) * |(z.1 : ℝ) / fScaledOne - Real.cos (k * entryAngle)|
      ≤ fScaledOne * (1024 / 2 ^ 47) :=
        mul_le_mul_of_nonneg_left (hre.trans (div_le_div_of_nonneg_right hk' (by positivity))) fScaledOne_pos.le
    _ = 2 ^ 112 := by norm_num [fScaledOne]

end Sys2Proof.Proofs
end

section
/-!
PROOF. The accuracy of the cosine table (R65, R66): the entries of the first quadrant against the turned point, and the other
quadrants by symmetry.
-/

namespace Sys2Proof.Proofs

open Sys2Proof.Machine Sys2Proof.Claims

/-! ## The entries of the first quadrant (R66) -/

/-- The entry `a` is within one part in 2^24 of every real near `c`, both in units of 2^-149; near is within 2^112 units,
which bounds the error of 1023 turns. -/
def entryAccurate (a : F) (c : Int) : Bool :=
  decide (2 ^ 24 * fScaled a ≤ (2 ^ 24 + 1) * (c - 2 ^ 112)) &&
    decide ((2 ^ 24 - 1) * (c + 2 ^ 112) ≤ 2 ^ 24 * fScaled a)

/-- The entries in order are accurate for the first coordinates of `z` and of its turns. -/
def entriesAccurate : List Nat → Int × Int → Bool
  | [], _ => true
  | n :: ns, z => entryAccurate (BitVec.ofNat 32 n) z.1 && entriesAccurate ns (turnPoint z)

theorem entryAccurate_of_entriesAccurate {ns : List Nat} {z : Int × Int} (h : entriesAccurate ns z = true) {k n : Nat}
    (hk : ns[k]? = some n) : entryAccurate (BitVec.ofNat 32 n) (turnPoint^[k] z).1 = true := by
  induction ns generalizing z k with
  | nil => cases hk
  | cons m ns ih =>
    obtain ⟨hhead, htail⟩ := Bool.and_eq_true_iff.1 h
    cases k with
    | zero =>
      obtain rfl : m = n := by simpa using hk
      exact hhead
    | succ k => exact ih htail (by simpa using hk)

/-- The entry is the real `x` to within one part in 2^24. -/
def AccurateFor (a : F) (x : ℝ) : Prop := |((valF a : ℚ) : ℝ) - x| ≤ |x| / 2 ^ 24

theorem accurateFor_neg {a : F} {x : ℝ} (h : AccurateFor a x) : AccurateFor (fneg a) (-x) := by
  unfold AccurateFor at h ⊢
  rw [valF_fneg, abs_neg]
  push_cast
  rwa [neg_sub_neg, abs_sub_comm]

theorem accurateFor_of_entryAccurate {a : F} {c : Int} {x : ℝ} (h : entryAccurate a c = true)
    (hx : |(c : ℝ) - fScaledOne * x| ≤ 2 ^ 112) : AccurateFor a x := by
  obtain ⟨hupper, hlower⟩ := Bool.and_eq_true_iff.1 h
  have hupper' : (2 : ℝ) ^ 24 * fScaled a ≤ (2 ^ 24 + 1) * (c - 2 ^ 112) := by exact_mod_cast of_decide_eq_true hupper
  have hlower' : ((2 : ℝ) ^ 24 - 1) * (c + 2 ^ 112) ≤ 2 ^ 24 * fScaled a := by exact_mod_cast of_decide_eq_true hlower
  obtain ⟨hx1, hx2⟩ := abs_le.1 hx
  have hval : (fScaled a : ℝ) = fScaledOne * ((valF a : ℚ) : ℝ) := by
    rw [valF_eq_fScaled, fScaledOne]
    push_cast
    ring
  set v : ℝ := ((valF a : ℚ) : ℝ) with hv
  rw [hval] at hupper' hlower'
  have hpos : (0 : ℝ) < fScaledOne * x := by linarith
  have hxpos : 0 < x := pos_of_mul_pos_right hpos fScaledOne_pos.le
  have above : v * 2 ^ 24 ≤ (2 ^ 24 + 1) * x := le_of_mul_le_mul_left (by linarith) fScaledOne_pos
  have below : (2 ^ 24 - 1) * x ≤ v * 2 ^ 24 := le_of_mul_le_mul_left (by linarith) fScaledOne_pos
  rw [AccurateFor, abs_of_pos hxpos, abs_le]
  constructor <;> linarith

/-! ## The whole table (R66) -/

theorem cosEntries_quadrant : entriesAccurate (cosEntries.take 1024) (fScaledOne, 0) = true := by decide +kernel

theorem accurateFor_quadrant {i : Nat} (hi : i < 1024) : AccurateFor (cosRead i) (Real.cos (i * entryAngle)) := by
  have hlength : i < cosEntries.length := by
    rw [cosEntries_length]
    omega
  have hentry : (cosEntries.take 1024)[i]? = some cosEntries[i] := by
    rw [List.getElem?_take_of_lt hi, List.getElem?_eq_getElem hlength]
  have hread : cosRead i = BitVec.ofNat 32 cosEntries[i] := by
    rw [cosRead_eq, List.getElem?_eq_getElem hlength, Option.getD_some]
  rw [hread]
  exact accurateFor_of_entryAccurate (entryAccurate_of_entriesAccurate cosEntries_quadrant hentry) (iterate_fst_near hi)

theorem half_turn : 2048 * entryAngle = Real.pi := by
  unfold entryAngle
  ring

/-- The zero of the quarter turn is exact. -/
theorem accurateFor_quarter : AccurateFor (cosRead 1024) (Real.cos ((1024 : Nat) * entryAngle)) := by
  have hangle : ((1024 : Nat) : ℝ) * entryAngle = Real.pi / 2 := by
    rw [← half_turn]
    push_cast
    ring
  have hread : cosRead 1024 = 0#32 := by decide +kernel
  have hval : valF 0#32 = 0 := by
    rw [valF_eq_fScaled]
    simp [show fScaled 0#32 = 0 by decide]
  rw [hangle, Real.cos_pi_div_two, hread, AccurateFor, hval]
  simp

/-- The second quadrant is the first mirrored with the signs flipped. -/
theorem accurateFor_half {i : Nat} (hi : i ≤ 2048) : AccurateFor (cosRead i) (Real.cos (i * entryAngle)) := by
  obtain hlt | rfl | hgt := Nat.lt_trichotomy i 1024
  · exact accurateFor_quadrant hlt
  · exact accurateFor_quarter
  · have hread : cosRead i = fneg (cosRead (2048 - i)) := by
      rw [← cosRead_reflect (by omega) (by omega), ← cosRead_add_half (by omega) (by omega)]
      congr 1
      omega
    have hcos : Real.cos (i * entryAngle) = -Real.cos ((2048 - i : Nat) * entryAngle) := by
      rw [Nat.cast_sub hi, sub_mul, Nat.cast_ofNat, half_turn, Real.cos_pi_sub, neg_neg]
    rw [hread, hcos]
    exact accurateFor_neg (accurateFor_quadrant (by omega))

/-- The second half of the table is the first mirrored. -/
theorem accurateFor_cosRead {i : Nat} (hi : i < 4096) : AccurateFor (cosRead i) (Real.cos (i * entryAngle)) := by
  obtain hle | hgt := le_or_gt i 2048
  · exact accurateFor_half hle
  · have hcos : Real.cos (i * entryAngle) = Real.cos ((4096 - i : Nat) * entryAngle) := by
      have hturn : ((4096 : Nat) : ℝ) * entryAngle = 2 * Real.pi := by
        rw [← half_turn]
        push_cast
        ring
      rw [Nat.cast_sub hi.le, sub_mul, hturn, Real.cos_two_pi_sub]
    rw [hcos, ← cosRead_reflect (by omega) hi]
    exact accurateFor_half (by omega)

/-- Settles O45: the entries of the first quadrant are checked against a point turned from entry to entry by a rational turn,
whose distance from the true point of the unit circle is bounded in the complex plane; the symmetries give the other
quadrants. -/
theorem cosineTableIsAccurate : Obligations.CosineTableIsAccurate := by
  unfold Obligations.CosineTableIsAccurate
  intro i hi
  have hangle : 2 * Real.pi * i / 4096 = i * entryAngle := by
    unfold entryAngle
    ring
  rw [hangle]
  exact accurateFor_cosRead hi

end Sys2Proof.Proofs
end

section
/-!
PROOF. The decoder and the encoder (R81, R84, R87 to R90). A header is its four fields, a row of R88 fixes two of them and
bits of the other two, and what a row assembles from a header and a payload is encoded by the same header and payload.
-/

namespace Sys2Proof.Proofs

open Sys2Proof.Machine Sys2Proof.Claims

/-! ## A header and its fields (R81) -/

@[simp] theorem hdrUnit_mkHeader (u k : BitVec 4) (o : BitVec 8) (a : BitVec 16) : hdrUnit (mkHeader u k o a) = u := by
  rw [hdrUnit, mkHeader, BitVec.extractLsb'_append_eq_of_le (by decide), BitVec.extractLsb'_append_eq_of_le (by decide)]
  exact BitVec.extractLsb'_append_eq_left

@[simp] theorem hdrInst_mkHeader (u k : BitVec 4) (o : BitVec 8) (a : BitVec 16) : hdrInst (mkHeader u k o a) = k := by
  rw [hdrInst, mkHeader, BitVec.extractLsb'_append_eq_of_le (by decide), BitVec.extractLsb'_append_eq_of_le (by decide)]
  exact BitVec.extractLsb'_append_eq_right

@[simp] theorem hdrOp_mkHeader (u k : BitVec 4) (o : BitVec 8) (a : BitVec 16) : hdrOp (mkHeader u k o a) = o := by
  rw [hdrOp, mkHeader, BitVec.extractLsb'_append_eq_of_le (by decide)]
  exact BitVec.extractLsb'_append_eq_right

@[simp] theorem hdrArg_mkHeader (u k : BitVec 4) (o : BitVec 8) (a : BitVec 16) : hdrArg (mkHeader u k o a) = a :=
  BitVec.extractLsb'_append_eq_right

theorem mkHeader_hdr (h : Word) : mkHeader (hdrUnit h) (hdrInst h) (hdrOp h) (hdrArg h) = h := by
  have upper : hdrUnit h ++ hdrInst h = h.extractLsb' 24 8 := BitVec.extractLsb'_append_extractLsb'_eq_extractLsb' rfl
  have middle : h.extractLsb' 24 8 ++ hdrOp h = h.extractLsb' 16 16 :=
    BitVec.extractLsb'_append_extractLsb'_eq_extractLsb' rfl
  rw [mkHeader, upper, middle]
  exact BitVec.extractLsb'_append_extractLsb'

theorem header_eq_iff {h g : Word} :
    h = g ↔ hdrUnit h = hdrUnit g ∧ hdrInst h = hdrInst g ∧ hdrOp h = hdrOp g ∧ hdrArg h = hdrArg g := by
  constructor
  · rintro rfl
    exact ⟨rfl, rfl, rfl, rfl⟩
  · rintro ⟨hu, hk, ho, ha⟩
    rw [← mkHeader_hdr h, hu, hk, ho, ha, mkHeader_hdr]

/-! ## The rows (R88) -/

/-- A mask of R88 keeps `UNIT`, `OP` and the bits that the row wants to be 0, and the match has no other bit set. -/
theorem matchesRow_iff_fields {h : Word} {op : Opcode} :
    h &&& rowMask op = rowMatch op ↔
      hdrUnit h = hdrUnit (rowMatch op) ∧ hdrInst h &&& hdrInst op.zeroBits = 0#4 ∧
        hdrOp h = hdrOp (rowMatch op) ∧ hdrArg h &&& hdrArg op.zeroBits = 0#16 := by
  have hunit : hdrUnit (h &&& rowMask op) = hdrUnit h := by
    rw [hdrUnit, BitVec.extractLsb'_and, show (rowMask op).extractLsb' 28 4 = BitVec.allOnes 4 by cases op <;> rfl]
    exact BitVec.and_allOnes
  have hcode : hdrOp (h &&& rowMask op) = hdrOp h := by
    rw [hdrOp, BitVec.extractLsb'_and, show (rowMask op).extractLsb' 16 8 = BitVec.allOnes 8 by cases op <;> rfl]
    exact BitVec.and_allOnes
  have hinst : hdrInst (h &&& rowMask op) = hdrInst h &&& hdrInst op.zeroBits := by
    rw [hdrInst, BitVec.extractLsb'_and]
    cases op <;> rfl
  have harg : hdrArg (h &&& rowMask op) = hdrArg h &&& hdrArg op.zeroBits := by
    rw [hdrArg, BitVec.extractLsb'_and]
    cases op <;> rfl
  have zeroInst : hdrInst (rowMatch op) = 0#4 := by cases op <;> rfl
  have zeroArg : hdrArg (rowMatch op) = 0#16 := by cases op <;> rfl
  rw [header_eq_iff, hunit, hcode, hinst, harg, zeroInst, zeroArg]

/-- The reserved bits lie in `INST` and `ARG`. -/
theorem and_zeroBits_eq_zero_iff {h : Word} {op : Opcode} :
    h &&& op.zeroBits = 0#32 ↔ hdrInst h &&& hdrInst op.zeroBits = 0#4 ∧ hdrArg h &&& hdrArg op.zeroBits = 0#16 := by
  have hunit : hdrUnit (h &&& op.zeroBits) = 0#4 := by
    rw [hdrUnit, BitVec.extractLsb'_and, show op.zeroBits.extractLsb' 28 4 = 0#4 by cases op <;> rfl, BitVec.and_zero]
  have hcode : hdrOp (h &&& op.zeroBits) = 0#8 := by
    rw [hdrOp, BitVec.extractLsb'_and, show op.zeroBits.extractLsb' 16 8 = 0#8 by cases op <;> rfl, BitVec.and_zero]
  have hinst : hdrInst (h &&& op.zeroBits) = hdrInst h &&& hdrInst op.zeroBits := BitVec.extractLsb'_and
  have harg : hdrArg (h &&& op.zeroBits) = hdrArg h &&& hdrArg op.zeroBits := BitVec.extractLsb'_and
  rw [header_eq_iff, hunit, hcode, hinst, harg]
  exact ⟨fun ⟨_, hk, _, ha⟩ => ⟨hk, ha⟩, fun ⟨hk, ha⟩ => ⟨rfl, hk, rfl, ha⟩⟩

/-- The rows that `rows` finds belong to the unit `u` and have the `OP` value they are found under. -/
def FindsRowsOf (u : BitVec 4) (rows : Nat → Option Opcode) : Prop :=
  ∀ n op, rows n = some op → hdrUnit (rowMatch op) = u ∧ (hdrOp (rowMatch op)).toNat = n

theorem coreOpcode_findsRows : FindsRowsOf 0#4 coreOpcode := by
  intro n op hrow
  unfold coreOpcode at hrow
  split at hrow <;> cases hrow <;> exact ⟨rfl, rfl⟩

theorem rsmpOpcode_findsRows : FindsRowsOf 1#4 rsmpOpcode := by
  intro n op hrow
  unfold rsmpOpcode at hrow
  split at hrow <;> cases hrow <;> exact ⟨rfl, rfl⟩

theorem ncoOpcode_findsRows : FindsRowsOf 2#4 ncoOpcode := by
  intro n op hrow
  unfold ncoOpcode at hrow
  split at hrow <;> cases hrow <;> exact ⟨rfl, rfl⟩

theorem pllOpcode_findsRows : FindsRowsOf 3#4 pllOpcode := by
  intro n op hrow
  unfold pllOpcode at hrow
  split at hrow <;> cases hrow <;> exact ⟨rfl, rfl⟩

theorem fields_eq_of_findsRows {u : BitVec 4} {rows : Nat → Option Opcode} (hrows : FindsRowsOf u rows) {h : Word}
    {op : Opcode} (hu : (hdrUnit h).toNat = u.toNat) (hrow : rows (hdrOp h).toNat = some op) :
    hdrUnit h = hdrUnit (rowMatch op) ∧ hdrOp h = hdrOp (rowMatch op) := by
  obtain ⟨hunit, hcode⟩ := hrows _ _ hrow
  exact ⟨(BitVec.eq_of_toNat_eq hu).trans hunit.symm, BitVec.eq_of_toNat_eq hcode.symm⟩

theorem fields_eq_of_lookupOpcode {h : Word} {op : Opcode} (hl : lookupOpcode h = .ok op) :
    hdrUnit h = hdrUnit (rowMatch op) ∧ hdrOp h = hdrOp (rowMatch op) := by
  unfold lookupOpcode at hl
  dsimp only at hl
  split at hl
  case h_1 hu =>
    split at hl <;> cases hl
    next hrow => exact fields_eq_of_findsRows coreOpcode_findsRows hu hrow
  case h_2 hu =>
    split at hl <;> cases hl
    next hrow => exact fields_eq_of_findsRows rsmpOpcode_findsRows hu hrow
  case h_3 hu =>
    split at hl <;> cases hl
    next hrow => exact fields_eq_of_findsRows ncoOpcode_findsRows hu hrow
  case h_4 hu =>
    split at hl <;> cases hl
    next hrow => exact fields_eq_of_findsRows pllOpcode_findsRows hu hrow
  case h_5 => cases hl

/-- A row is selected by `UNIT` and `OP` alone (R87). -/
theorem lookupOpcode_eq_ok_iff {h : Word} {op : Opcode} :
    lookupOpcode h = .ok op ↔ hdrUnit h = hdrUnit (rowMatch op) ∧ hdrOp h = hdrOp (rowMatch op) := by
  refine ⟨fields_eq_of_lookupOpcode, fun ⟨hunit, hcode⟩ => ?_⟩
  have same : lookupOpcode h = lookupOpcode (rowMatch op) := by simp only [lookupOpcode, hunit, hcode]
  rw [same]
  cases op <;> rfl

/-- Steps 1 to 3 of R87 as the one comparison under the mask of R88. -/
theorem matchesRow_iff {h : Word} {op : Opcode} :
    h &&& rowMask op = rowMatch op ↔ lookupOpcode h = .ok op ∧ h &&& op.zeroBits = 0#32 := by
  rw [matchesRow_iff_fields, lookupOpcode_eq_ok_iff, and_zeroBits_eq_zero_iff]
  exact ⟨fun ⟨hu, hk, ho, ha⟩ => ⟨⟨hu, ho⟩, hk, ha⟩, fun ⟨⟨hu, ho⟩, hk, ha⟩ => ⟨hu, hk, ho, ha⟩⟩

/-- Two rows never match the same header: a matching row is the one that R87 looks up. -/
theorem matchesRow_unique {h : Word} {op op' : Opcode} (hop : h &&& rowMask op = rowMatch op)
    (hop' : h &&& rowMask op' = rowMatch op') : op = op' := by
  obtain ⟨hl, -⟩ := matchesRow_iff.1 hop
  obtain ⟨hl', -⟩ := matchesRow_iff.1 hop'
  exact Except.ok.inj (hl.symm.trans hl')

theorem matchesRow_mkHeader {op : Opcode} {u : BitVec 4} {o : BitVec 8} {a : BitVec 16} (k : BitVec 4)
    (ha : a &&& hdrArg op.zeroBits = 0#16) (hu : hdrUnit (rowMatch op) = u := by rfl)
    (ho : hdrOp (rowMatch op) = o := by rfl) (hfree : hdrInst op.zeroBits = 0#4 := by rfl) :
    mkHeader u k o a &&& rowMask op = rowMatch op := by
  rw [matchesRow_iff_fields, hdrUnit_mkHeader, hdrInst_mkHeader, hdrOp_mkHeader, hdrArg_mkHeader, hfree]
  exact ⟨hu.symm, BitVec.and_zero, ho.symm, ha⟩

/-- The header of a row with the free bits of `h`: the row's `UNIT` and `OP`, and the reserved bits 0. -/
def rowHeader (op : Opcode) (h : Word) : Word :=
  mkHeader (hdrUnit (rowMatch op)) (hdrInst h &&& ~~~hdrInst op.zeroBits) (hdrOp (rowMatch op))
    (hdrArg h &&& ~~~hdrArg op.zeroBits)

theorem and_not_eq_self {w : Nat} {a m : BitVec w} (h : a &&& m = 0#w) : a &&& ~~~m = a :=
  calc
    a &&& ~~~m = a &&& (m ||| ~~~m) := by rw [BitVec.and_or_distrib_left, h, BitVec.zero_or]
    _ = a := by rw [BitVec.or_not_self, BitVec.and_allOnes]

/-- A header that matches a row has nothing but the row's fields and free bits. -/
theorem rowHeader_of_matchesRow {op : Opcode} {h : Word} (hrow : h &&& rowMask op = rowMatch op) : rowHeader op h = h := by
  obtain ⟨hunit, hinst, hcode, harg⟩ := matchesRow_iff_fields.1 hrow
  rw [rowHeader, ← hunit, ← hcode, and_not_eq_self hinst, and_not_eq_self harg, mkHeader_hdr]

/-- Outside CORE, `INST` is free (R83). -/
theorem mkHeader_eq_rowHeader {op : Opcode} {u : BitVec 4} {o : BitVec 8} {a : BitVec 16} {h : Word}
    (ha : a = hdrArg h &&& ~~~hdrArg op.zeroBits) (hu : hdrUnit (rowMatch op) = u := by rfl)
    (ho : hdrOp (rowMatch op) = o := by rfl) (hfree : hdrInst op.zeroBits = 0#4 := by rfl) :
    mkHeader u (hdrInst h) o a = rowHeader op h := by
  have hk : hdrInst h &&& hdrInst op.zeroBits = 0#4 := by rw [hfree, BitVec.and_zero]
  rw [rowHeader, hu, ho, ha, and_not_eq_self hk]

/-- A row without `ARG` subfields has only `INST` free. -/
theorem mkHeader_eq_rowHeader_of_reservedArg {op : Opcode} {u : BitVec 4} {o : BitVec 8} (h : Word)
    (hop : op.zeroBits = 0x0000FFFF#32 := by rfl) (hu : hdrUnit (rowMatch op) = u := by rfl)
    (ho : hdrOp (rowMatch op) = o := by rfl) : mkHeader u (hdrInst h) o 0#16 = rowHeader op h := by
  refine mkHeader_eq_rowHeader ?_ hu ho (by rw [hop]; rfl)
  rw [hop, show ~~~hdrArg 0x0000FFFF#32 = 0#16 from rfl, BitVec.and_zero]

/-- A CORE row has no free bit. -/
theorem mkHeader_eq_rowHeader_of_core {op : Opcode} {u : BitVec 4} {o : BitVec 8} (h : Word)
    (hop : op.zeroBits = 0x0F00FFFF#32 := by rfl) (hu : hdrUnit (rowMatch op) = u := by rfl)
    (ho : hdrOp (rowMatch op) = o := by rfl) : mkHeader u 0#4 o 0#16 = rowHeader op h := by
  rw [rowHeader, hu, ho, hop, show ~~~hdrInst 0x0F00FFFF#32 = 0#4 from rfl, show ~~~hdrArg 0x0F00FFFF#32 = 0#16 from rfl,
    BitVec.and_zero, BitVec.and_zero]

/-! ## The fields of `ARG` (R84) -/

theorem argOfCin_argCin (h : Word) : argOfCin (argCin h) = hdrArg h &&& ~~~hdrArg Opcode.rsmpResample.zeroBits := by
  change _ = hdrArg h &&& 0x0001#16
  refine BitVec.eq_of_getLsbD_eq fun j hj => ?_
  simp only [argOfCin, argCin, hdrArg, BitVec.getLsbD_append, BitVec.getLsbD_and, BitVec.getLsbD_extractLsb']
  interval_cases j <;> simp

theorem argOfSetfreq_argIp_argDb (h : Word) :
    argOfSetfreq (argIp h) (argDb h) = hdrArg h &&& ~~~hdrArg Opcode.ncoSetfreq.zeroBits := by
  change _ = hdrArg h &&& 0x013F#16
  refine BitVec.eq_of_getLsbD_eq fun j hj => ?_
  simp only [argOfSetfreq, argIp, argDb, hdrArg, BitVec.getLsbD_append, BitVec.getLsbD_and, BitVec.getLsbD_extractLsb']
  interval_cases j <;> simp

theorem argOfConfigure_argEven_argVar (h : Word) :
    argOfConfigure (argEven h) (argVar h) = hdrArg h &&& ~~~hdrArg Opcode.pllConfigure.zeroBits := by
  change _ = hdrArg h &&& 0x0103#16
  refine BitVec.eq_of_getLsbD_eq fun j hj => ?_
  simp only [argOfConfigure, argEven, argVar, hdrArg, BitVec.getLsbD_append, BitVec.getLsbD_and,
    BitVec.getLsbD_extractLsb']
  interval_cases j <;> simp

theorem argOfCin_and_reserved (cin : Bool) : argOfCin cin &&& hdrArg Opcode.rsmpResample.zeroBits = 0#16 := by
  decide +revert

theorem argOfRdtap_and_reserved (p : BitVec 16) : p &&& hdrArg Opcode.rsmpRdtap.zeroBits = 0#16 := BitVec.and_zero

theorem argOfSetfreq_and_reserved (ip : Bool) (db : BitVec 6) :
    argOfSetfreq ip db &&& hdrArg Opcode.ncoSetfreq.zeroBits = 0#16 := by
  decide +revert

theorem argOfConfigure_and_reserved (even : Bool) (var : BitVec 2) :
    argOfConfigure even var &&& hdrArg Opcode.pllConfigure.zeroBits = 0#16 := by
  decide +revert

@[simp] theorem argCin_mkHeader (u k : BitVec 4) (o : BitVec 8) (cin : Bool) :
    argCin (mkHeader u k o (argOfCin cin)) = cin := by
  simp only [argCin, mkHeader, argOfCin, BitVec.getLsbD_append]
  simp

@[simp] theorem argIp_mkHeader (u k : BitVec 4) (o : BitVec 8) (ip : Bool) (db : BitVec 6) :
    argIp (mkHeader u k o (argOfSetfreq ip db)) = ip := by
  simp only [argIp, mkHeader, argOfSetfreq, BitVec.getLsbD_append]
  simp

@[simp] theorem argDb_mkHeader (u k : BitVec 4) (o : BitVec 8) (ip : Bool) (db : BitVec 6) :
    argDb (mkHeader u k o (argOfSetfreq ip db)) = db := by
  rw [argDb, mkHeader, argOfSetfreq, BitVec.extractLsb'_append_eq_of_add_le (by decide)]
  exact BitVec.extractLsb'_append_eq_right

@[simp] theorem argEven_mkHeader (u k : BitVec 4) (o : BitVec 8) (even : Bool) (var : BitVec 2) :
    argEven (mkHeader u k o (argOfConfigure even var)) = even := by
  simp only [argEven, mkHeader, argOfConfigure, BitVec.getLsbD_append]
  simp

@[simp] theorem argVar_mkHeader (u k : BitVec 4) (o : BitVec 8) (even : Bool) (var : BitVec 2) :
    argVar (mkHeader u k o (argOfConfigure even var)) = var := by
  rw [argVar, mkHeader, argOfConfigure, BitVec.extractLsb'_append_eq_of_add_le (by decide)]
  exact BitVec.extractLsb'_append_eq_right

theorem argVar_eq_three_iff (h : Word) : argVar h = 3#2 ↔ h.toNat % 4 = 3 := by
  rw [← BitVec.toNat_inj, argVar, BitVec.extractLsb'_toNat]
  simp

/-! ## Operands from a header and a payload (R89) -/

theorem dwordWords_joinWords (lo hi : Word) : dwordWords (joinWords lo hi) = [lo, hi] := by
  have low : lowWord (joinWords lo hi) = lo := BitVec.extractLsb'_append_eq_right
  have high : highWord (joinWords lo hi) = hi := BitVec.extractLsb'_append_eq_left
  rw [dwordWords, low, high]

/-- The rows of the table go by the payload count, which is six words at most. -/
theorem length_of_assemble {op : Opcode} {h : Word} {ws : List Word} {i : Instr} (ha : assemble op h ws = some i) :
    ws.length = op.npay := by
  obtain _ | ⟨_, _ | ⟨_, _ | ⟨_, _ | ⟨_, _ | ⟨_, _ | ⟨_, _ | ⟨_, _⟩⟩⟩⟩⟩⟩⟩ := ws <;> cases op <;> cases ha <;> rfl

/-- A row with the payload words it asks for has its command, and the command is sent as the row's header and these words. -/
theorem assemble_of_length {op : Opcode} {ws : List Word} (h : Word) (hlen : ws.length = op.npay) :
    ∃ i, assemble op h ws = some i ∧ i.opcode = op ∧ encode i = ⟨rowHeader op h, ws⟩ := by
  cases op with
  | coreNop | coreReset | coreId | coreErr =>
    obtain rfl := List.length_eq_zero_iff.1 hlen
    exact ⟨_, rfl, rfl, congrArg (Packet.mk · _) (mkHeader_eq_rowHeader_of_core h)⟩
  | rsmpCreate =>
    match ws, hlen with
    | [n, t, r0, r1, c0, c1], _ =>
      refine ⟨_, rfl, rfl, ?_⟩
      rw [encode, dwordWords_joinWords, dwordWords_joinWords]
      exact congrArg (Packet.mk · _) (mkHeader_eq_rowHeader_of_reservedArg h)
  | rsmpDecimate | rsmpInterpolate =>
    obtain ⟨d, re, im, rfl⟩ := List.length_eq_three.1 hlen
    exact ⟨_, rfl, rfl, congrArg (Packet.mk · _) (mkHeader_eq_rowHeader_of_reservedArg h)⟩
  | rsmpResample =>
    obtain ⟨d, re, im, rfl⟩ := List.length_eq_three.1 hlen
    exact ⟨_, rfl, rfl, congrArg (Packet.mk · _) (mkHeader_eq_rowHeader (argOfCin_argCin h))⟩
  | rsmpRdtap =>
    obtain ⟨j, rfl⟩ := List.length_eq_one_iff.1 hlen
    have harg := and_not_eq_self (argOfRdtap_and_reserved (hdrArg h))
    exact ⟨_, rfl, rfl, congrArg (Packet.mk · _) (mkHeader_eq_rowHeader harg.symm)⟩
  | ncoSetfreq =>
    obtain ⟨f0, f1, r0, r1, rfl⟩ := List.length_eq_four.1 hlen
    refine ⟨_, rfl, rfl, ?_⟩
    rw [encode, dwordWords_joinWords, dwordWords_joinWords]
    exact congrArg (Packet.mk · _) (mkHeader_eq_rowHeader (argOfSetfreq_argIp_argDb h))
  | pllConfigure =>
    match ws, hlen with
    | [f0, f1, b0, b1, m0, m1], _ =>
      refine ⟨_, rfl, rfl, ?_⟩
      rw [encode, dwordWords_joinWords, dwordWords_joinWords, dwordWords_joinWords]
      exact congrArg (Packet.mk · _) (mkHeader_eq_rowHeader (argOfConfigure_argEven_argVar h))
  | pllProcess =>
    obtain ⟨x, rfl⟩ := List.length_eq_one_iff.1 hlen
    exact ⟨_, rfl, rfl, congrArg (Packet.mk · _) (mkHeader_eq_rowHeader_of_reservedArg h)⟩
  | ncoNextphase | ncoGet | ncoGetiq | ncoNext | ncoNextiq | pllLocked | pllPilotlevel | pllGetout | pllEvdrain =>
    obtain rfl := List.length_eq_zero_iff.1 hlen
    exact ⟨_, rfl, rfl, congrArg (Packet.mk · _) (mkHeader_eq_rowHeader_of_reservedArg h)⟩

/-- What a row assembles from a header and a payload is a command of the row, sent as the row's header and these words. -/
theorem opcode_encode_of_assemble {op : Opcode} {h : Word} {ws : List Word} {i : Instr} (ha : assemble op h ws = some i) :
    i.opcode = op ∧ encode i = ⟨rowHeader op h, ws⟩ := by
  obtain ⟨j, hj, hop, henc⟩ := assemble_of_length h (length_of_assemble ha)
  obtain rfl := Option.some.inj (ha.symm.trans hj)
  exact ⟨hop, henc⟩

/-! ## The encoder -/

theorem encode_matchesRow (i : Instr) : (encode i).header &&& rowMask i.opcode = rowMatch i.opcode := by
  cases i with
  | coreNop | coreReset | coreId | coreErr => rfl
  | rsmpResample k cin => exact matchesRow_mkHeader (op := .rsmpResample) k (argOfCin_and_reserved cin)
  | rsmpRdtap k p => exact matchesRow_mkHeader (op := .rsmpRdtap) k (argOfRdtap_and_reserved p)
  | ncoSetfreq k ip db => exact matchesRow_mkHeader (op := .ncoSetfreq) k (argOfSetfreq_and_reserved ip db)
  | pllConfigure k even var => exact matchesRow_mkHeader (op := .pllConfigure) k (argOfConfigure_and_reserved even var)
  | _ =>
    simp only [encode, Instr.opcode]
    exact matchesRow_mkHeader _ (by exact BitVec.zero_and)

/-- The row of a command reads every operand back from the encoded words: `assemble` evaluates on the concrete row and
payload to the command with the fields of the encoded header as operands. -/
theorem assemble_encode (i : Instr) : assemble i.opcode (encode i).header (encode i).payload = some i := by
  cases i with
  | coreNop | coreReset | coreId | coreErr => rfl
  | rsmpCreate | ncoSetfreq | pllConfigure =>
    conv_lhs => whnf
    simp [encode, joinWords_lowWord_highWord]
  | _ =>
    conv_lhs => whnf
    simp [encode]

/-- The one ill-formed command is PLL.CONFIGURE with the reserved `VAR` (R84, R90 (e)). -/
theorem wellFormed_iff (i : Instr) :
    i.wellFormed = true ↔ ¬(i.opcode = .pllConfigure ∧ argVar (encode i).header = 3#2) := by
  cases i with
  | pllConfigure k even var freq bw minsig => simp [Instr.wellFormed, variantLegal, Instr.opcode, encode]
  | _ => simp [Instr.wellFormed, Instr.opcode]

/-! ## The decoder -/

/-- Steps 1 to 4 of R87: a packet decodes by the row its header matches, unless it holds the reserved `VAR`. -/
theorem decode_eq_command_iff {p : Packet} {i : Instr} :
    decode p = .command i ↔
      ∃ op, p.header &&& rowMask op = rowMatch op ∧ ¬(op = .pllConfigure ∧ argVar p.header = 3#2) ∧
        assemble op p.header p.payload = some i := by
  constructor
  · intro hdec
    unfold decode at hdec
    split at hdec
    next => cases hdec
    next op hl =>
      split at hdec
      next => cases hdec
      next hzero =>
        split at hdec
        next => cases hdec
        next hvar =>
          split at hdec
          next j ha =>
            cases hdec
            exact ⟨op, matchesRow_iff.2 ⟨hl, not_not.1 hzero⟩, hvar, ha⟩
          next => cases hdec
  · rintro ⟨op, hrow, hvar, ha⟩
    obtain ⟨hl, hzero⟩ := matchesRow_iff.1 hrow
    simp only [decode, hl, hzero, ne_eq, not_true_eq_false, if_false, hvar, ha]

theorem decode_encode {i : Instr} (hwf : i.wellFormed = true) : decode (encode i) = .command i :=
  decode_eq_command_iff.2 ⟨i.opcode, encode_matchesRow i, (wellFormed_iff i).1 hwf, assemble_encode i⟩

/-- Settles O1: the row of a command matches its header and reads its operands back. -/
theorem decodeOfEncodeIsCommand : Obligations.DecodeOfEncodeIsCommand := by
  unfold Obligations.DecodeOfEncodeIsCommand
  exact fun i hwf => decode_encode hwf

/-- Settles O2: the row that decodes a packet sends the packet's payload again, under the header with the row's fields and
the packet's free bits, which is the packet's header because it matches the row. -/
theorem encodeOfDecodeIsPacket : Obligations.EncodeOfDecodeIsPacket := by
  unfold Obligations.EncodeOfDecodeIsPacket
  intro p i hdec
  obtain ⟨op, hrow, hvar, ha⟩ := decode_eq_command_iff.1 hdec
  obtain ⟨rfl, henc⟩ := opcode_encode_of_assemble ha
  rw [rowHeader_of_matchesRow hrow] at henc
  exact ⟨henc, (wellFormed_iff i).2 (henc ▸ hvar)⟩

/-- Settles O3: each packet is the encoding of its command. -/
theorem writtenWordsDecode : Obligations.WrittenWordsDecode := by
  unfold Obligations.WrittenWordsDecode
  exact ⟨decode_encode (i := .ncoSetfreq 1#4 false 8#6 0x408F400000000000#64 0x40E7700000000000#64) rfl,
    decode_encode (i := .rsmpResample 0#4 true 0x3F000000#32 0x3F800000#32 0xC0000000#32) rfl,
    decode_encode
      (i := .pllConfigure 2#4 true 1#2 0x3FD0000000000000#64 0x3FA999999999999A#64 0x3FA999999999999A#64) rfl,
    decode_encode (i := .rsmpRdtap 3#4 0xABCD#16 0x00000007#32) rfl, decode_encode (i := .coreErr) rfl⟩

/-- Settles O4: a packet decodes to a command of the row exactly when the row matches and its operands can be read. -/
theorem headerSelectsTableRow : Obligations.HeaderSelectsTableRow := by
  unfold Obligations.HeaderSelectsTableRow
  refine ⟨fun p op => ?_, fun h op op' => matchesRow_unique⟩
  simp only [ne_eq, ← argVar_eq_three_iff]
  constructor
  · rintro ⟨i, hdec, hop⟩
    obtain ⟨op', hrow, hvar, ha⟩ := decode_eq_command_iff.1 hdec
    obtain ⟨hop', -⟩ := opcode_encode_of_assemble ha
    obtain rfl : op' = op := hop'.symm.trans hop
    exact ⟨hrow, length_of_assemble ha, not_and.1 hvar⟩
  · rintro ⟨hrow, hlen, hvar⟩
    obtain ⟨i, ha, hop, -⟩ := assemble_of_length p.header hlen
    exact ⟨i, decode_eq_command_iff.2 ⟨op, hrow, not_and.2 hvar, ha⟩, hop⟩

end Sys2Proof.Proofs
end

section
/-!
PROOF. Round to nearest, ties to even (R112): the kept fraction is the nearest whole number of kept units, every other value
of the encoding is either such a number too or lies below the range of the kept exponent, and the sign and the overflow
threshold are those of the rule.
-/

namespace Sys2Proof.Proofs

open Sys2Proof.Machine Sys2Proof.Claims

/-! ## The nearest integer -/

/-- The distance to the rounded quotient is at most half a unit, and the quotient is even when it is exactly half. -/
theorem roundHalfEven_half (n : Nat) {d : Nat} (hd : 0 < d) :
    2 * |(n : ℤ) - roundHalfEven n d * d| ≤ d ∧
      (2 * |(n : ℤ) - roundHalfEven n d * d| = d → roundHalfEven n d % 2 = 0) := by
  have hmod : n % d < d := Nat.mod_lt n hd
  have hdown : (n : ℤ) - (n / d : Nat) * d = (n % d : Nat) := by
    have h : ((d * (n / d) + n % d : Nat) : ℤ) = n := by rw [Nat.div_add_mod]
    push_cast at h ⊢
    linarith
  have hup : (n : ℤ) - (n / d + 1 : Nat) * d = (n % d : Nat) - d := by
    rw [← hdown]
    push_cast
    ring
  unfold roundHalfEven
  dsimp only
  split
  next =>
    rw [hup, abs_of_nonpos (by omega)]
    omega
  next =>
    rw [hdown, abs_of_nonneg (by omega)]
    omega

/-- No integer is nearer to a quotient than its rounding, and an integer as near leaves it even. -/
theorem roundHalfEven_nearest (n : Nat) {d : Nat} (hd : 0 < d) (j : ℤ) :
    |(n : ℤ) - roundHalfEven n d * d| ≤ |(n : ℤ) - j * d| ∧
      (j ≠ roundHalfEven n d → |(n : ℤ) - j * d| = |(n : ℤ) - roundHalfEven n d * d| → roundHalfEven n d % 2 = 0) := by
  obtain ⟨hhalf, htie⟩ := roundHalfEven_half n hd
  by_cases hj : j = roundHalfEven n d
  · rw [hj]
    exact ⟨le_rfl, fun hne => absurd rfl hne⟩
  · have apart : (d : ℤ) ≤ |(n : ℤ) - roundHalfEven n d * d| + |(n : ℤ) - j * d| :=
      calc (d : ℤ) ≤ |j - roundHalfEven n d| * d :=
            le_mul_of_one_le_left (by omega) (Int.one_le_abs (sub_ne_zero.2 hj))
        _ = |((n : ℤ) - roundHalfEven n d * d) - (n - j * d)| := by
            rw [← Nat.abs_cast d, ← abs_mul, Nat.abs_cast]
            congr 1
            ring
        _ ≤ _ := abs_sub _ _
    exact ⟨by omega, fun _ heq => htie (by omega)⟩

/-- A rounded quotient exceeds an odd integer exactly from the midpoint on: that tie goes up. -/
theorem lt_roundHalfEven_iff {n d j : Nat} (hd : 0 < d) (hj : j % 2 = 1) :
    j < roundHalfEven n d ↔ (2 * j + 1) * d ≤ 2 * n := by
  obtain ⟨hhalf, htie⟩ := roundHalfEven_half n hd
  constructor
  · intro hlt
    have hlow := neg_abs_le ((n : ℤ) - roundHalfEven n d * d)
    have hstep : ((j + 1 : Nat) : ℤ) * d ≤ roundHalfEven n d * d := by gcongr; exact hlt
    push_cast at hstep
    zify
    linarith
  · intro hmid
    by_contra hle
    have hhigh := le_abs_self ((n : ℤ) - roundHalfEven n d * d)
    have hbelow : (roundHalfEven n d : ℤ) * d ≤ j * d := by gcongr; exact not_lt.1 hle
    zify at hmid
    have hdist : 2 * |(n : ℤ) - roundHalfEven n d * d| = d := by linarith
    have hj' : roundHalfEven n d = j := by
      have : ((j : ℤ) - roundHalfEven n d) * d = 0 := by linarith
      obtain h | h := mul_eq_zero.1 this <;> omega
    have := htie hdist
    omega

/-! ## The magnitudes of the encoding (R111) -/

/-- The pattern of a kept fraction with its exponent, the carry out of the fraction included. -/
theorem fMag_of_kept {a : F} {k q : Nat} (ha : a.toNat = k * 2 ^ 23 + q) (hle : a.toNat ≤ 0x7F800000) (hq : q ≤ 2 ^ 24)
    (hk : k = 0 ∨ 2 ^ 23 ≤ q) : fMag a = q * 2 ^ k := by
  obtain hsub | hnormal | hcarry : k = 0 ∧ q < 2 ^ 23 ∨ (2 ^ 23 ≤ q ∧ q < 2 ^ 24) ∨ q = 2 ^ 24 := by omega
  · obtain ⟨rfl, hq⟩ := hsub
    have hexp : fExp a = 0 := by rw [fExp_eq]; omega
    have hfrac : fFrac a = q := by rw [fFrac_eq]; omega
    rw [fMag, if_pos hexp, hfrac, pow_zero, mul_one]
  · have hexp : fExp a = k + 1 := by rw [fExp_eq]; omega
    have hfrac : 2 ^ 23 + fFrac a = q := by rw [fFrac_eq]; omega
    rw [fMag, if_neg (by omega), hfrac, hexp, Nat.add_sub_cancel]
  · have hexp : fExp a = k + 2 := by rw [fExp_eq]; omega
    have hfrac : fFrac a = 0 := by rw [fFrac_eq]; omega
    rw [fMag, if_neg (by omega), hfrac, hexp, hcarry]
    change 2 ^ 23 * 2 ^ (k + 1) = 2 ^ 24 * 2 ^ k
    ring

/-- A magnitude of `2^(23+k)` units or more is a whole multiple of `2^k` units: its fraction has 24 bits. -/
theorem two_pow_dvd_fMag {a : F} {k : Nat} (h : 2 ^ (23 + k) ≤ fMag a) : 2 ^ k ∣ fMag a := by
  have hfrac : fFrac a < 2 ^ 23 := (a.extractLsb' 0 23).isLt
  have hpow : 2 ^ 23 ≤ 2 ^ (23 + k) := Nat.pow_le_pow_right (by omega) (by omega)
  unfold fMag at h ⊢
  split at h
  next => omega
  next he =>
    rw [if_neg he]
    refine (pow_dvd_pow 2 ?_).mul_left _
    have hlt : 2 ^ (23 + k) < 2 ^ (24 + (fExp a - 1)) := by
      rw [pow_add 2 24]
      exact h.trans_lt (Nat.mul_lt_mul_of_pos_right (by omega) (Nat.two_pow_pos _))
    have := (Nat.pow_lt_pow_iff_right (by omega)).1 hlt
    omega

/-! ## The rounding of a magnitude (R112) -/

/-- Where bits are dropped the magnitude has reached the range of the kept exponent. -/
theorem le_of_droppedBits_pos {n d : Nat} (hd : 0 < d) (h : 0 < droppedBits (n / d)) :
    2 ^ (23 + droppedBits (n / d)) * d ≤ n := by
  have hlog : Nat.log2 (n / d) = 23 + droppedBits (n / d) := by
    unfold droppedBits at h ⊢
    omega
  have hne : n / d ≠ 0 := by
    intro h0
    simp [h0, droppedBits] at h
  rw [← Nat.le_div_iff_mul_le hd, ← hlog]
  exact Nat.log2_self_le hne

/-- A finite rounding is the kept fraction times the weight of its last bit. -/
theorem fMag_rndMag {n d : Nat} {a : F} (ha : a.toNat = rndMag n d) (hfin : rndMag n d < 0x7F800000) :
    a.toNat = droppedBits (n / d) * 2 ^ 23 + roundHalfEven n (d * 2 ^ droppedBits (n / d)) ∧
      fMag a = roundHalfEven n (d * 2 ^ droppedBits (n / d)) * 2 ^ droppedBits (n / d) := by
  have hpattern : a.toNat = droppedBits (n / d) * 2 ^ 23 + roundHalfEven n (d * 2 ^ droppedBits (n / d)) := by
    rw [rndMag_eq] at ha hfin
    omega
  refine ⟨hpattern, fMag_of_kept hpattern (by omega) (kept_le n d) ?_⟩
  exact (Nat.eq_zero_or_pos _).imp_right le_kept

/-- No magnitude of the encoding is nearer than a finite rounding, and a different one as near leaves its last bit 0. -/
theorem rndMag_nearest {n d : Nat} (hd : 0 < d) {a : F} (ha : a.toNat = rndMag n d) (hfin : rndMag n d < 0x7F800000) (b : F) :
    |(n : ℤ) - fMag a * d| ≤ |(n : ℤ) - fMag b * d| ∧
      (fMag b ≠ fMag a → |(n : ℤ) - fMag b * d| = |(n : ℤ) - fMag a * d| → a.toNat % 2 = 0) := by
  obtain ⟨hpattern, hmag⟩ := fMag_rndMag ha hfin
  have hreach := le_of_droppedBits_pos hd (n := n)
  generalize droppedBits (n / d) = k at hpattern hmag hreach
  have nearest := roundHalfEven_nearest n (d := d * 2 ^ k) (by positivity)
  generalize roundHalfEven n (d * 2 ^ k) = q at hpattern hmag nearest
  have multiple (j : ℤ) : j * ((d * 2 ^ k : Nat) : ℤ) = j * 2 ^ k * d := by
    push_cast
    ring
  simp only [multiple] at nearest
  rw [hmag]
  push_cast
  by_cases hdvd : 2 ^ k ∣ fMag b
  · obtain ⟨j, hj⟩ := hdvd
    obtain ⟨hle, heven⟩ := nearest j
    have hb : (fMag b : ℤ) = j * 2 ^ k := by rw [hj]; push_cast; ring
    rw [hb]
    refine ⟨hle, fun hne heq => ?_⟩
    have hjq : (j : ℤ) ≠ q := by
      rintro h
      exact hne (by rw [hj, Int.natCast_inj.1 h, mul_comm])
    have := heven hjq heq
    omega
  · have hbelow : fMag b < 2 ^ (23 + k) := not_le.1 (mt two_pow_dvd_fMag hdvd)
    have hk : 0 < k := Nat.pos_of_ne_zero fun h0 => hdvd (by simp [h0])
    have hfar : |(n : ℤ) - q * 2 ^ k * d| < |(n : ℤ) - fMag b * d| := by
      have hn : (2 : ℤ) ^ 23 * 2 ^ k * d ≤ n := by
        rw [← pow_add]
        exact_mod_cast hreach hk
      have hb : (fMag b : ℤ) * d < 2 ^ 23 * 2 ^ k * d := by
        rw [← pow_add]
        exact mul_lt_mul_of_pos_right (by exact_mod_cast hbelow) (by exact_mod_cast hd)
      refine (nearest (2 ^ 23)).1.trans_lt ?_
      rw [abs_of_nonneg (by omega), abs_of_nonneg (by omega)]
      omega
    exact ⟨hfar.le, fun _ heq => absurd heq hfar.ne'⟩

/-- Roundings to 2^128 or more, the infinity, are those of the magnitudes from 2^128 - 2^103 on. -/
theorem rndMag_eq_infinity_iff (n : Nat) {d : Nat} (hd : 0 < d) :
    rndMag n d = 0x7F800000 ↔ (2 ^ 25 - 1) * 2 ^ 252 * d ≤ n := by
  have hlog : n / d < 2 ^ (24 + droppedBits (n / d)) := by
    refine Nat.lt_log2_self.trans_le (Nat.pow_le_pow_right (by omega) ?_)
    unfold droppedBits
    omega
  have hbelow : n < 2 ^ (24 + droppedBits (n / d)) * d := (Nat.div_lt_iff_lt_mul hd).1 hlog
  have hreach := le_of_droppedBits_pos hd (n := n)
  have hlead := le_kept (n := n) (d := d)
  have hkept := kept_le n d
  rw [rndMag_eq]
  obtain hsmall | hlast | hlarge :
      droppedBits (n / d) ≤ 252 ∨ droppedBits (n / d) = 253 ∨ 254 ≤ droppedBits (n / d) := by omega
  · have hpow : 2 ^ (24 + droppedBits (n / d)) * d ≤ 2 ^ 276 * d := by gcongr <;> omega
    constructor <;> intro h <;> omega
  · have hmid := lt_roundHalfEven_iff (n := n) (d := d * 2 ^ 253) (j := 2 ^ 24 - 1) (by positivity) (by norm_num)
    rw [hlast] at hkept ⊢
    constructor <;> intro h <;> omega
  · have hpow : 2 ^ 277 * d ≤ 2 ^ (23 + droppedBits (n / d)) * d := by gcongr <;> omega
    have := hreach (by omega)
    have := hlead (by omega)
    constructor <;> intro h <;> omega

/-! ## The sign (R111, R112) -/

theorem toNat_fneg_mod (a : F) : (fneg a).toNat % 2 ^ 31 = a.toNat % 2 ^ 31 := by
  rw [fneg, BitVec.toNat_xor, Nat.xor_mod_two_pow]
  exact Nat.xor_zero _

theorem toNat_fneg_div (a : F) : (fneg a).toNat / 2 ^ 31 = 1 ↔ ¬ a.toNat / 2 ^ 31 = 1 := by
  rw [← fSign_iff, ← fSign_iff, fSign_fneg, Bool.not_eq_true', Bool.not_eq_true]

@[simp] theorem fneg_fneg (a : F) : fneg (fneg a) = a := by
  rw [fneg, fneg, BitVec.xor_assoc, BitVec.xor_self, BitVec.xor_zero]

theorem finF_fneg (a : F) : finF (fneg a) ↔ finF a := by
  have := toNat_fneg_mod a
  unfold finF
  omega

/-- The pattern of the rounding of a magnitude is that of the magnitude: the sign bit is clear (R111). -/
theorem toNat_rndUnits (n d : Nat) : (rndUnits n d).toNat = rndMag n d := by
  have hle := rndMag_le n d
  unfold rndUnits
  split
  next h0 =>
    obtain rfl : n = 0 := by exact_mod_cast h0
    rw [rndMag_zero]
    rfl
  next =>
    rw [if_neg (by omega), Int.natAbs_natCast, BitVec.toNat_ofNat, Nat.zero_add]
    exact Nat.mod_eq_of_lt (by omega)

/-- A real and its negative round to patterns that differ in the sign bit (R112). -/
theorem rndUnits_neg {n : Nat} (hn : n ≠ 0) (d : Nat) : rndUnits (-n) d = fneg (rndUnits n d) := by
  have hle := rndMag_le n d
  have hneg : (rndUnits (-n) d).toNat = 2 ^ 31 + rndMag n d := by
    rw [rndUnits, if_neg (by omega), if_pos (by omega), Int.natAbs_neg, Int.natAbs_natCast, BitVec.toNat_ofNat]
    omega
  have hmod := toNat_fneg_mod (rndUnits n d)
  have hdiv := toNat_fneg_div (rndUnits n d)
  have hlt := (fneg (rndUnits n d)).isLt
  refine BitVec.eq_of_toNat_eq ?_
  rw [toNat_rndUnits] at hmod hdiv
  omega

/-! ## The rule (R112) -/

theorem roundsTo_zero_iff (a : F) : RoundsTo 0 a ↔ a = 0x00000000#32 := by
  rw [RoundsTo, if_pos rfl]

theorem roundsTo_iff_of_overflow {r : ℚ} (h : 2 ^ 128 - 2 ^ 103 ≤ |r|) (a : F) :
    RoundsTo r a ↔ a = if r < 0 then 0xFF800000#32 else 0x7F800000#32 := by
  have hr : r ≠ 0 := by
    rintro rfl
    norm_num at h
  rw [RoundsTo, if_neg hr, if_pos h]

theorem roundsTo_iff_of_finite {r : ℚ} (hr : r ≠ 0) (h : |r| < 2 ^ 128 - 2 ^ 103) (a : F) :
    RoundsTo r a ↔ finF a ∧ (a.toNat / 2 ^ 31 = 1 ↔ r < 0) ∧ (∀ b, finF b → |r - valF a| ≤ |r - valF b|) ∧
      (∀ b, finF b → valF b ≠ valF a → |r - valF b| = |r - valF a| → a.toNat % 2 = 0) := by
  rw [RoundsTo, if_neg hr, if_neg (not_le.2 h)]

/-- The rule is symmetric in the sign. -/
theorem roundsTo_neg {r : ℚ} {a : F} (hr : 0 < r) (h : RoundsTo r a) : RoundsTo (-r) (fneg a) := by
  obtain hover | hfin := le_or_gt (2 ^ 128 - 2 ^ 103) |r|
  · rw [roundsTo_iff_of_overflow hover, if_neg hr.le.not_gt] at h
    rw [roundsTo_iff_of_overflow (by rwa [abs_neg]), if_pos (neg_lt_zero.2 hr), h]
    decide
  · obtain ⟨hfinite, hsign, hnear, heven⟩ := (roundsTo_iff_of_finite hr.ne' hfin a).1 h
    have mirror (b : F) : |-r - valF b| = |r - valF (fneg b)| := by
      rw [valF_fneg, ← abs_neg]
      congr 1
      ring
    rw [roundsTo_iff_of_finite (neg_ne_zero.2 hr.ne') (by rwa [abs_neg])]
    simp only [mirror, fneg_fneg]
    refine ⟨(finF_fneg a).2 hfinite, ?_, fun b hb => hnear _ ((finF_fneg b).2 hb), fun b hb hne heq => ?_⟩
    · have := toNat_fneg_div a
      simp only [neg_lt_zero, hr, iff_true]
      have := hsign.not.2 hr.le.not_gt
      tauto
    · have hparity := toNat_fneg_mod a
      have := heven (fneg b) ((finF_fneg b).2 hb) (fun h => hne (by rw [valF_fneg, ← h, valF_fneg, neg_neg])) heq
      omega

/-- The distance from a number of units over a denominator to a value, as a whole number over the denominator. -/
theorem abs_sub_valF (n : ℤ) {d : Nat} (hd : 0 < d) (b : F) :
    |(n : ℚ) / (d * 2 ^ 149) - valF b| = ((|n - fScaled b * d| : ℤ) : ℚ) / (d * 2 ^ 149) := by
  have hd' : (d : ℚ) ≠ 0 := by exact_mod_cast hd.ne'
  have hpos : (0 : ℚ) < d * 2 ^ 149 := by positivity
  rw [valF_eq_fScaled, Int.cast_abs, ← abs_of_pos hpos, ← abs_div, abs_of_pos hpos]
  congr 1
  push_cast
  field_simp

/-- No value, a negative one included, is nearer to a positive quotient than its finite rounding. -/
theorem rndMag_nearest_value {n d : Nat} (hn : 0 < n) (hd : 0 < d) {a : F} (ha : a.toNat = rndMag n d)
    (hfin : rndMag n d < 0x7F800000) (b : F) :
    |(n : ℤ) - fScaled a * d| ≤ |(n : ℤ) - fScaled b * d| ∧
      (fScaled b ≠ fScaled a → |(n : ℤ) - fScaled b * d| = |(n : ℤ) - fScaled a * d| → a.toNat % 2 = 0) := by
  obtain ⟨hle, heven⟩ := rndMag_nearest hd ha hfin b
  rw [fScaled_of_lt (a := a) (by omega)]
  obtain hpos | hneg : fScaled b = fMag b ∨ fScaled b = -fMag b ∧ 0 < fMag b := by
    unfold fScaled
    split <;> omega
  · rw [hpos]
    exact ⟨hle, fun hne => heven (by exact_mod_cast hne)⟩
  · obtain ⟨hscaled, hmag⟩ := hneg
    have hfar : |(n : ℤ) - fMag b * d| < |(n : ℤ) - fScaled b * d| := by
      have hprod : (0 : ℤ) < fMag b * d := by positivity
      rw [hscaled, neg_mul, sub_neg_eq_add]
      exact (abs_lt.2 ⟨by omega, by omega⟩).trans_le (le_abs_self _)
    exact ⟨hle.trans hfar.le, fun _ heq => absurd heq (hle.trans_lt hfar).ne'⟩

/-- `rnd_F` of a positive number of units over a denominator. -/
theorem rndUnits_roundsTo_of_pos {n d : Nat} (hn : 0 < n) (hd : 0 < d) :
    RoundsTo (((n : ℤ) : ℚ) / (d * 2 ^ 149)) (rndUnits n d) := by
  have ha := toNat_rndUnits n d
  have hunits : (0 : ℚ) < d * 2 ^ 149 := by positivity
  have hpos : (0 : ℚ) < ((n : ℤ) : ℚ) / (d * 2 ^ 149) := by positivity
  have hthreshold : 2 ^ 128 - 2 ^ 103 ≤ |((n : ℤ) : ℚ) / (d * 2 ^ 149)| ↔ rndMag n d = 0x7F800000 := by
    rw [rndMag_eq_infinity_iff n hd, abs_of_pos hpos, le_div_iff₀ hunits, ← @Nat.cast_le ℚ]
    push_cast
    constructor <;> intro h <;> linarith
  by_cases hinf : rndMag n d = 0x7F800000
  · rw [roundsTo_iff_of_overflow (hthreshold.2 hinf), if_neg hpos.le.not_gt]
    exact BitVec.eq_of_toNat_eq (ha.trans hinf)
  · have hfin : rndMag n d < 0x7F800000 := lt_of_le_of_ne (rndMag_le n d) hinf
    have nearest := rndMag_nearest_value hn hd ha hfin
    rw [roundsTo_iff_of_finite hpos.ne' (not_le.1 (mt hthreshold.1 hinf))]
    simp only [abs_sub_valF _ hd, div_le_div_iff_of_pos_right hunits, div_left_inj' hunits.ne', Int.cast_le, Int.cast_inj]
    refine ⟨by unfold finF; omega, ?_, fun b _ => (nearest b).1, fun b _ hne => (nearest b).2 fun h => hne ?_⟩
    · simp only [hpos.le.not_gt, iff_false]
      omega
    · rw [valF_eq_fScaled, valF_eq_fScaled, h]

/-- `rnd_F` of any number of units over a denominator (R112). -/
theorem rndUnits_roundsTo (n : ℤ) {d : Nat} (hd : 0 < d) : RoundsTo ((n : ℚ) / (d * 2 ^ 149)) (rndUnits n d) := by
  obtain hneg | rfl | hpos := lt_trichotomy n 0
  · obtain ⟨m, rfl⟩ := Int.exists_eq_neg_ofNat hneg.le
    have hm : 0 < m := by omega
    rw [rndUnits_neg hm.ne', Int.cast_neg, neg_div]
    exact roundsTo_neg (by positivity) (rndUnits_roundsTo_of_pos hm hd)
  · rw [Int.cast_zero, zero_div, roundsTo_zero_iff]
    rfl
  · obtain ⟨m, rfl⟩ := Int.eq_ofNat_of_zero_le hpos.le
    exact rndUnits_roundsTo_of_pos (by omega) hd

/-- Settles O59. -/
theorem roundingIsNearestEven : Obligations.RoundingIsNearestEven := by
  unfold Obligations.RoundingIsNearestEven
  intro n d hd
  have h := rndUnits_roundsTo (n * 2 ^ 149) hd
  rw [Int.cast_mul, Int.cast_pow, Int.cast_ofNat, mul_div_mul_right _ _ (by positivity)] at h
  exact h

end Sys2Proof.Proofs
end

section
/-!
PROOF. The operations and comparisons of `F` (R113 to R115): each class of operands has its case of the operation, the finite
case rounds the exact value once, and the comparisons are those of the values with the infinities at the ends.
-/

namespace Sys2Proof.Proofs

open Sys2Proof.Machine Sys2Proof.Claims

/-! ## The classes of patterns (R111) -/

theorem nanF_iff (a : F) : nanF a ↔ fIsNaN a = true := by
  rw [nanF, fIsNaN, fExp_eq, fFrac_eq, Bool.and_eq_true, beq_iff_eq, bne_iff_ne]

theorem infF_iff (a : F) : infF a ↔ fIsInf a = true := by
  have hlt := a.isLt
  simp only [infF, fIsInf, fExp_eq, fFrac_eq, Bool.and_eq_true, beq_iff_eq, ← BitVec.toNat_inj, BitVec.toNat_ofNat]
  omega

theorem fIsZero_iff_fMag (a : F) : fIsZero a = true ↔ fMag a = 0 := by
  unfold fIsZero fMag
  by_cases h : fExp a = 0 <;> simp [h]

theorem fScaled_eq_zero_iff (a : F) : fScaled a = 0 ↔ fIsZero a = true := by
  rw [fIsZero_iff_fMag, fScaled]
  split <;> omega

theorem valF_eq_zero_iff (a : F) : valF a = 0 ↔ fIsZero a = true := by
  rw [valF_eq_fScaled, ← fScaled_eq_zero_iff, div_eq_zero_iff]
  norm_num

theorem fIsInf_of_finite {a : F} (h : fIsFinite a = true) : fIsInf a = false := by
  simp only [fIsFinite, bne_iff_ne] at h
  simp [fIsInf, h]

theorem fIsNaN_of_inf {a : F} (h : fIsInf a = true) : fIsNaN a = false := by
  simp only [fIsInf, Bool.and_eq_true, beq_iff_eq] at h
  simp [fIsNaN, h]

theorem fIsZero_of_inf {a : F} (h : fIsInf a = true) : fIsZero a = false := by
  simp only [fIsInf, Bool.and_eq_true, beq_iff_eq] at h
  simp [fIsZero, h]

/-- A pattern that is no NaN is an infinity or finite. -/
theorem inf_or_finite {a : F} (h : fIsNaN a = false) : fIsInf a = true ∨ fIsFinite a = true := by
  by_cases hexp : fExp a = 255
  · left
    simpa [fIsNaN, fIsInf, hexp] using h
  · right
    simpa [fIsFinite] using hexp

/-! ## The sign bit (R113) -/

theorem fNegZero_getLsbD : ∀ j < 32, fNegZero.getLsbD j = decide (j = 31) := by decide

theorem getLsbD_fneg (a : F) {j : Nat} (hj : j < 32) :
    (fneg a).getLsbD j = if j = 31 then !a.getLsbD j else a.getLsbD j := by
  rw [fneg, BitVec.getLsbD_xor, fNegZero_getLsbD j hj]
  by_cases h : j = 31 <;> simp [h]

@[simp] theorem fIsNaN_fneg (a : F) : fIsNaN (fneg a) = fIsNaN a := by
  have := toNat_fneg_mod a
  rw [Bool.eq_iff_iff, ← nanF_iff, ← nanF_iff, nanF, nanF]
  omega

@[simp] theorem fIsInf_fneg (a : F) : fIsInf (fneg a) = fIsInf a := by
  have := toNat_fneg_mod a
  rw [fIsInf, fIsInf, fExp_eq, fFrac_eq, fExp_eq, fFrac_eq, Bool.eq_iff_iff]
  simp only [Bool.and_eq_true, beq_iff_eq]
  omega

theorem and_signBit (a : F) : a &&& 0x80000000#32 = fSignedZero (fSign a) :=
  BitVec.and_twoPow a 31

theorem fSign_xor (a b : F) : fSign (a ^^^ b) = (fSign a != fSign b) := by
  rw [fSign, BitVec.getLsbD_xor]
  rfl

theorem infOfSigns_eq (a b : F) : infOfSigns a b = fInf (fSign a != fSign b) := by
  rw [infOfSigns, and_signBit, fSign_xor]
  cases fSign a != fSign b <;> rfl

/-! ## A NaN operand and the infinities (R114) -/

theorem fadd_of_nan {a b : F} (h : nanF a ∨ nanF b) : fadd a b = fNaN := by
  rw [nanF_iff, nanF_iff, ← Bool.or_eq_true] at h
  rw [fadd, if_pos h]

theorem fmul_of_nan {a b : F} (h : nanF a ∨ nanF b) : fmul a b = fNaN := by
  rw [nanF_iff, nanF_iff, ← Bool.or_eq_true] at h
  rw [fmul, if_pos h]

theorem fadd_of_inf_left {a b : F} (ha : infF a) (hb : finF b) : fadd a b = a := by
  rw [infF_iff] at ha
  rw [finF_iff] at hb
  simp [fadd, ha, fIsNaN_of_inf ha, fIsNaN_of_finite hb, fIsInf_of_finite hb]

theorem fadd_of_inf_right {a b : F} (ha : finF a) (hb : infF b) : fadd a b = b := by
  rw [infF_iff] at hb
  rw [finF_iff] at ha
  simp [fadd, hb, fIsNaN_of_inf hb, fIsNaN_of_finite ha, fIsInf_of_finite ha]

theorem fadd_of_infs {a b : F} (ha : infF a) (hb : infF b) : fadd a b = if fSign a = fSign b then a else fNaN := by
  rw [infF_iff] at ha hb
  by_cases h : fSign a = fSign b <;> simp [fadd, ha, hb, fIsNaN_of_inf ha, fIsNaN_of_inf hb, h]

theorem fmul_of_inf {a b : F} (ha : infF a) (hb : ¬ nanF b) :
    fmul a b = if valF b = 0 then fNaN else infOfSigns a b := by
  rw [infF_iff] at ha
  rw [nanF_iff, Bool.not_eq_true] at hb
  rw [infOfSigns_eq]
  by_cases h : fIsZero b = true <;> simp [fmul, ha, hb, fIsNaN_of_inf ha, fIsZero_of_inf ha, valF_eq_zero_iff, h]

theorem fmul_comm (a b : F) : fmul a b = fmul b a := by
  unfold fmul
  dsimp only
  rw [Bool.or_comm (fIsNaN a), Bool.or_comm (fIsInf a && _), Bool.and_comm (fIsZero a), Bool.and_comm (fIsInf a),
    Bool.or_comm (fIsInf a), bne_comm (a := fSign a), mul_comm (fScaled a)]

theorem infOfSigns_comm (a b : F) : infOfSigns a b = infOfSigns b a := by
  rw [infOfSigns, infOfSigns, BitVec.xor_comm]

/-- The sign tells the two infinities apart. -/
theorem fSign_eq_iff_of_infs {a b : F} (ha : infF a) (hb : infF b) : fSign a = fSign b ↔ a = b := by
  obtain rfl | rfl := ha <;> obtain rfl | rfl := hb <;> decide

theorem infF_fneg {a : F} (h : infF a) : infF (fneg a) := by
  rwa [infF_iff, fIsInf_fneg, ← infF_iff]

theorem nanF_fneg (a : F) : nanF (fneg a) ↔ nanF a := by
  rw [nanF_iff, fIsNaN_fneg, ← nanF_iff]

theorem not_nanF_of_infF {a : F} (h : infF a) : ¬ nanF a := by
  rw [nanF_iff, fIsNaN_of_inf ((infF_iff a).1 h)]
  decide

theorem not_nanF_of_finF {a : F} (h : finF a) : ¬ nanF a :=
  fun hnan => h hnan.1

theorem valF_ne_zero_of_infF {a : F} (h : infF a) : valF a ≠ 0 := by
  rw [Ne, valF_eq_zero_iff, fIsZero_of_inf ((infF_iff a).1 h)]
  decide

theorem specialArithmetic_holds : specialArithmetic := by
  refine ⟨fun a b h => ⟨fadd_of_nan h, fadd_of_nan (h.imp_right (nanF_fneg b).2), fmul_of_nan h⟩, ?_, ?_⟩
  · intro a b ha hb
    have product := fmul_of_inf ha (not_nanF_of_finF hb)
    exact ⟨fadd_of_inf_left ha hb, fadd_of_inf_right hb ha, fadd_of_inf_left ha ((finF_fneg b).2 hb),
      fadd_of_inf_right hb (infF_fneg ha), product, fmul_comm b a ▸ product⟩
  · intro a b ha hb
    refine ⟨?_, ?_, ?_⟩
    · rw [fadd_of_infs ha hb]
      simp only [fSign_eq_iff_of_infs ha hb]
      rfl
    · rw [fsub, fadd_of_infs ha (infF_fneg hb), fSign_fneg]
      simp only [← fSign_eq_iff_of_infs ha hb, Bool.eq_not, ite_not, ne_eq]
      rfl
    · rw [fmul_of_inf ha (not_nanF_of_infF hb), if_neg (valF_ne_zero_of_infF hb)]

/-! ## Finite operands (R113) -/

theorem fadd_of_finite {a b : F} (ha : finF a) (hb : finF b) :
    fadd a b = if fScaled a + fScaled b = 0 then fSignedZero (fSign a && fSign b) else rndUnits (fScaled a + fScaled b) 1 := by
  rw [finF_iff] at ha hb
  simp [fadd, fIsNaN_of_finite, fIsInf_of_finite, ha, hb]

theorem fmul_of_finite {a b : F} (ha : finF a) (hb : finF b) :
    fmul a b = if fScaled a * fScaled b = 0 then fSignedZero (fSign a != fSign b)
      else rndUnits (fScaled a * fScaled b) (2 ^ 149) := by
  rw [finF_iff] at ha hb
  simp only [fmul, fIsNaN_of_finite, fIsInf_of_finite, ha, hb, Bool.or_false, Bool.false_and, Bool.and_false,
    Bool.false_eq_true, if_false]

theorem valF_add (a b : F) : valF a + valF b = ((fScaled a + fScaled b : ℤ) : ℚ) / ((1 : ℕ) * 2 ^ 149) := by
  rw [valF_eq_fScaled, valF_eq_fScaled, ← add_div, Int.cast_add, Nat.cast_one, one_mul]

theorem valF_mul (a b : F) : valF a * valF b = ((fScaled a * fScaled b : ℤ) : ℚ) / ((2 ^ 149 : ℕ) * 2 ^ 149) := by
  rw [valF_eq_fScaled, valF_eq_fScaled, div_mul_div_comm, Int.cast_mul, Nat.cast_pow, Nat.cast_ofNat]

theorem fadd_roundsTo {a b : F} (ha : finF a) (hb : finF b) (h : valF a + valF b ≠ 0) :
    RoundsTo (valF a + valF b) (fadd a b) := by
  rw [valF_add] at h ⊢
  rw [fadd_of_finite ha hb, if_neg fun h0 => h (by rw [h0, Int.cast_zero, zero_div])]
  exact rndUnits_roundsTo _ one_pos

theorem fmul_roundsTo {a b : F} (ha : finF a) (hb : finF b) (h : valF a * valF b ≠ 0) :
    RoundsTo (valF a * valF b) (fmul a b) := by
  rw [valF_mul] at h ⊢
  rw [fmul_of_finite ha hb, if_neg fun h0 => h (by rw [h0, Int.cast_zero, zero_div])]
  exact rndUnits_roundsTo _ (by positivity)

/-- A pattern without magnitude is told by its sign. -/
theorem eq_fSignedZero_of_fMag {a : F} (h : fMag a = 0) : a = fSignedZero (fSign a) := by
  have hlt := a.isLt
  rw [← fIsZero_iff_fMag, fIsZero, fExp_eq, fFrac_eq, Bool.and_eq_true, beq_iff_eq, beq_iff_eq] at h
  cases hs : fSign a with
  | false =>
    have hsign := mt (fSign_iff a).2 (Bool.not_eq_true _ ▸ hs)
    exact BitVec.eq_of_toNat_eq (show a.toNat = 0 by omega)
  | true =>
    have hsign := (fSign_iff a).1 hs
    exact BitVec.eq_of_toNat_eq (show a.toNat = 2 ^ 31 by omega)

/-- Two patterns with the sign bit set have the sum 0 only as negative zeros. -/
theorem fSign_and_iff_of_sum_zero {a b : F} (h : fScaled a + fScaled b = 0) :
    (fSign a && fSign b) = true ↔ a = 0x80000000#32 ∧ b = 0x80000000#32 := by
  constructor
  · intro hs
    obtain ⟨hsa, hsb⟩ := Bool.and_eq_true_iff.1 hs
    rw [fScaled, fScaled, if_pos hsa, if_pos hsb] at h
    have hza := eq_fSignedZero_of_fMag (a := a) (by omega)
    have hzb := eq_fSignedZero_of_fMag (a := b) (by omega)
    rw [hsa] at hza
    rw [hsb] at hzb
    exact ⟨hza, hzb⟩
  · rintro ⟨rfl, rfl⟩
    decide

theorem fadd_of_sum_zero {a b : F} (ha : finF a) (hb : finF b) (h : valF a + valF b = 0) :
    fadd a b = if a = 0x80000000#32 ∧ b = 0x80000000#32 then 0x80000000#32 else 0#32 := by
  have hsum : fScaled a + fScaled b = 0 := by
    rw [valF_add, div_eq_zero_iff, Int.cast_eq_zero] at h
    exact h.resolve_right (by norm_num)
  rw [fadd_of_finite ha hb, if_pos hsum, fSignedZero]
  simp only [fSign_and_iff_of_sum_zero hsum]
  rfl

theorem fmul_of_product_zero {a b : F} (ha : finF a) (hb : finF b) (h : valF a * valF b = 0) :
    fmul a b = (a ^^^ b) &&& 0x80000000#32 := by
  have hprod : fScaled a * fScaled b = 0 := by
    rw [valF_mul, div_eq_zero_iff, Int.cast_eq_zero] at h
    exact h.resolve_right (by norm_num)
  rw [fmul_of_finite ha hb, if_pos hprod, and_signBit, fSign_xor]

theorem fneg_eq_negZero_iff (b : F) : fneg b = 0x80000000#32 ↔ b = 0#32 := by
  constructor
  · intro h
    rw [← fneg_fneg b, h]
    decide
  · rintro rfl
    decide

theorem finiteArithmetic_holds : finiteArithmetic := by
  refine ⟨fun a b ha hb => ?_, fun a j hj => getLsbD_fneg a hj⟩
  have hb' := (finF_fneg b).2 hb
  have hsub : valF a - valF b = valF a + valF (fneg b) := by rw [valF_fneg, sub_eq_add_neg]
  refine ⟨fadd_roundsTo ha hb, ?_, fmul_roundsTo ha hb, fadd_of_sum_zero ha hb, ?_, fmul_of_product_zero ha hb⟩
  · rw [hsub]
    exact fadd_roundsTo ha hb'
  · rw [hsub]
    simp only [← fneg_eq_negZero_iff b]
    exact fadd_of_sum_zero ha hb'

/-! ## Comparisons (R115) -/

/-- The value of a number of units, the magnitude that stands for the infinities at the ends. -/
noncomputable def unitsE (n : ℤ) : EReal :=
  if n = 2 ^ 277 then ⊤ else if n = -2 ^ 277 then ⊥ else (((n : ℚ) / 2 ^ 149 : ℚ) : ℝ)

theorem unitsE_strictMonoOn : StrictMonoOn unitsE (Set.Icc (-2 ^ 277) (2 ^ 277)) := by
  intro m hm n hn hlt
  have hm' : m ≠ 2 ^ 277 := (hlt.trans_le hn.2).ne
  have hn' : n ≠ -2 ^ 277 := (hm.1.trans_lt hlt).ne'
  have hcast : ((m : ℚ) / 2 ^ 149 : ℚ) < (n : ℚ) / 2 ^ 149 :=
    div_lt_div_of_pos_right (by exact_mod_cast hlt) (by positivity)
  unfold unitsE
  rw [if_neg hm', if_neg hn']
  split_ifs
  · exact bot_lt_top
  · exact EReal.bot_lt_coe _
  · exact EReal.coe_lt_top _
  · exact_mod_cast hcast

theorem fMag_of_inf {a : F} (h : fIsInf a = true) : fMag a = 2 ^ 277 := by
  rw [fIsInf, Bool.and_eq_true, beq_iff_eq, beq_iff_eq] at h
  obtain ⟨hexp, hfrac⟩ := h
  rw [fMag, hexp, hfrac, if_neg (by decide), Nat.add_zero, ← pow_add]

theorem fMag_lt_of_finite {a : F} (h : fIsFinite a = true) : fMag a < 2 ^ 277 := by
  have hfrac : fFrac a < 2 ^ 23 := (a.extractLsb' 0 23).isLt
  have hexp : fExp a < 2 ^ 8 := (a.extractLsb' 23 8).isLt
  rw [fIsFinite, bne_iff_ne] at h
  unfold fMag
  split
  next => omega
  next =>
    calc (2 ^ 23 + fFrac a) * 2 ^ (fExp a - 1) < 2 ^ 24 * 2 ^ (fExp a - 1) :=
          Nat.mul_lt_mul_of_pos_right (by omega) (Nat.two_pow_pos _)
      _ ≤ 2 ^ 24 * 2 ^ 253 := Nat.mul_le_mul_left _ (Nat.pow_le_pow_right (by omega) (by omega))
      _ = 2 ^ 277 := by rw [← pow_add]

theorem fScaled_of_inf {a : F} (h : fIsInf a = true) : fScaled a = if fSign a then -2 ^ 277 else 2 ^ 277 := by
  rw [fScaled, fMag_of_inf h, Nat.cast_pow, Nat.cast_ofNat]

theorem fScaled_mem_Icc {a : F} (h : ¬ nanF a) : fScaled a ∈ Set.Icc (-2 ^ 277) (2 ^ 277) := by
  rw [nanF_iff, Bool.not_eq_true] at h
  have hle : fMag a ≤ 2 ^ 277 := (inf_or_finite h).elim (fun h => (fMag_of_inf h).le) fun h => (fMag_lt_of_finite h).le
  rw [Set.mem_Icc, fScaled]
  split <;> omega

/-- The comparisons by value are those of the units that the machine compares. -/
theorem valE_eq_unitsE {a : F} (h : ¬ nanF a) : valE a = unitsE (fScaled a) := by
  rw [nanF_iff, Bool.not_eq_true] at h
  obtain hinf | hfin := inf_or_finite h
  · obtain rfl | rfl := (infF_iff a).2 hinf
    · rw [valE, if_pos rfl, unitsE, fScaled_of_inf hinf, if_neg (by decide : ¬ fSign 0x7F800000#32 = true), if_pos rfl]
    · rw [valE, if_neg (by decide), if_pos rfl, unitsE, fScaled_of_inf hinf,
        if_pos (by decide : fSign 0xFF800000#32 = true), if_neg (neg_lt_self (by positivity)).ne, if_pos rfl]
  · have hmag := fMag_lt_of_finite hfin
    have hpattern : ¬ infF a := by
      rw [infF_iff, fIsInf_of_finite hfin]
      decide
    obtain ⟨hpos, hneg⟩ := not_or.1 hpattern
    have hbound : fScaled a ≠ 2 ^ 277 ∧ fScaled a ≠ -2 ^ 277 := by
      unfold fScaled
      split <;> omega
    rw [valE, if_neg hpos, if_neg hneg, unitsE, if_neg hbound.1, if_neg hbound.2, valF_eq_fScaled]

theorem fge_iff (a b : F) : fge a b = true ↔ ¬ nanF a ∧ ¬ nanF b ∧ fScaled b ≤ fScaled a := by
  simp [fge, nanF_iff, and_assoc]

theorem fgt_iff (a b : F) : fgt a b = true ↔ ¬ nanF a ∧ ¬ nanF b ∧ fScaled b < fScaled a := by
  simp [fgt, nanF_iff, and_assoc]

theorem feq_iff (a b : F) : feq a b = true ↔ ¬ nanF a ∧ ¬ nanF b ∧ fScaled a = fScaled b := by
  simp [feq, nanF_iff, and_assoc]

theorem fge_iff_valE (a b : F) : fge a b = true ↔ ¬ nanF a ∧ ¬ nanF b ∧ valE b ≤ valE a := by
  rw [fge_iff]
  refine and_congr_right fun ha => and_congr_right fun hb => ?_
  rw [valE_eq_unitsE ha, valE_eq_unitsE hb, unitsE_strictMonoOn.le_iff_le (fScaled_mem_Icc hb) (fScaled_mem_Icc ha)]

theorem fgt_iff_valE (a b : F) : fgt a b = true ↔ ¬ nanF a ∧ ¬ nanF b ∧ valE b < valE a := by
  rw [fgt_iff]
  refine and_congr_right fun ha => and_congr_right fun hb => ?_
  rw [valE_eq_unitsE ha, valE_eq_unitsE hb, unitsE_strictMonoOn.lt_iff_lt (fScaled_mem_Icc hb) (fScaled_mem_Icc ha)]

theorem flt_iff_valE (a b : F) : flt a b = true ↔ ¬ nanF a ∧ ¬ nanF b ∧ valE a < valE b := by
  rw [flt, fgt_iff_valE, and_left_comm]

theorem feq_iff_valE (a b : F) : feq a b = true ↔ ¬ nanF a ∧ ¬ nanF b ∧ valE a = valE b := by
  rw [feq_iff]
  refine and_congr_right fun ha => and_congr_right fun hb => ?_
  rw [valE_eq_unitsE ha, valE_eq_unitsE hb, unitsE_strictMonoOn.injOn.eq_iff (fScaled_mem_Icc ha) (fScaled_mem_Icc hb)]

theorem comparisonsByValue_holds : comparisonsByValue :=
  ⟨fun a => ⟨(nanF_iff a).symm, (finF_iff a).symm⟩,
    fun a b => ⟨fge_iff_valE a b, fgt_iff_valE a b, flt_iff_valE a b, feq_iff_valE a b⟩⟩

/-- Settles O60. -/
theorem arithmeticRoundsExactValueOnce : Obligations.ArithmeticRoundsExactValueOnce := by
  unfold Obligations.ArithmeticRoundsExactValueOnce
  exact ⟨finiteArithmetic_holds, specialArithmetic_holds, comparisonsByValue_holds⟩

end Sys2Proof.Proofs
end

section
/-!
PROOF. The frequency registers of PLL.CONFIGURE in values (R39, R214): the order of the patterns is that of the values, and the
signal floor is the rounding of its operand.
-/

namespace Sys2Proof.Proofs

open Sys2Proof.Machine Sys2Proof.Claims

/-! ## Order in values (R115) -/

theorem valF_le_of_fge {a b : F} (h : fge a b = true) : valF b ≤ valF a := by
  obtain ⟨-, -, hle⟩ := (fge_iff a b).1 h
  rw [valF_eq_fScaled, valF_eq_fScaled]
  gcongr

theorem valF_lt_of_fgt {a b : F} (h : fgt a b = true) : valF b < valF a := by
  obtain ⟨-, -, hlt⟩ := (fgt_iff a b).1 h
  rw [valF_eq_fScaled, valF_eq_fScaled]
  gcongr

theorem valF_fZero : valF fZero = 0 :=
  (valF_eq_zero_iff fZero).2 (by decide)

theorem valF_fHalf : valF fHalf = 1 / 2 := by
  unfold valF fHalf
  decide +kernel

/-! ## The configuration operands (R117) -/

theorem cfExp_eq (c : CF) : cfExp c = c.toNat / 2 ^ 52 % 2 ^ 11 := by
  simp [cfExp, Nat.shiftRight_eq_div_pow]

theorem cfFrac_eq (c : CF) : cfFrac c = c.toNat % 2 ^ 52 := by
  simp [cfFrac]

theorem cfSign_iff (c : CF) : c.getLsbD 63 = true ↔ c.toNat / 2 ^ 63 = 1 := by
  have hlt : c.toNat < 2 ^ 64 := c.isLt
  rw [BitVec.getLsbD, Nat.testBit_eq_decide_div_mod_eq, decide_eq_true_eq]
  omega

/-- The value of the statements is the number of units that the machine computes with. -/
theorem val64_eq_cfScaled (c : CF) : val64 c = (cfScaled c : ℚ) / 2 ^ 1074 := by
  have magnitude :
      (if cfExp c = 0 then (cfFrac c : ℚ) / 2 ^ 1074 else ((2 ^ 52 + cfFrac c : Nat) : ℚ) * 2 ^ cfExp c / 2 ^ 1075) =
      (cfMag c : ℚ) / 2 ^ 1074 := by
    unfold cfMag
    split
    next => rfl
    next hne =>
      obtain ⟨e, he⟩ : ∃ e, cfExp c = e + 1 := Nat.exists_eq_succ_of_ne_zero hne
      rw [he, Nat.add_sub_cancel, pow_succ (2 : ℚ) e, pow_succ (2 : ℚ) 1074, ← mul_assoc,
        mul_div_mul_right _ _ two_ne_zero, Nat.cast_mul, Nat.cast_pow, Nat.cast_ofNat]
  unfold val64
  dsimp only
  rw [← cfExp_eq, ← cfFrac_eq, magnitude, cfScaled_eq]
  by_cases hs : c.toNat / 2 ^ 63 = 1
  · rw [if_pos hs, if_pos ((cfSign_iff c).2 hs), Int.cast_neg, neg_div, Int.cast_natCast]
  · rw [if_neg hs, if_neg (mt (cfSign_iff c).1 hs), Int.cast_natCast]

/-- The rounding of a configuration operand is that of its value (R112, R117). -/
theorem rndCf_roundsTo (c : CF) : RoundsTo (val64 c) (rndCf (cfScaled c)) := by
  have h := roundingIsNearestEven (cfScaled c) cfOne cfOne_pos
  rw [cfOne, Nat.cast_pow, Nat.cast_ofNat, ← val64_eq_cfScaled] at h
  exact h

/-! ## What the rule says of a non-negative real (R112) -/

/-- A non-negative real below the overflow threshold rounds to a finite value that is not negative. -/
theorem roundsTo_nonneg {r : ℚ} {a : F} (h : RoundsTo r a) (hr : 0 ≤ r) (hlt : r < 2 ^ 128 - 2 ^ 103) :
    finF a ∧ 0 ≤ valF a := by
  obtain rfl | hpos := hr.eq_or_lt
  · obtain rfl := (roundsTo_zero_iff a).1 h
    exact ⟨by unfold finF; decide, valF_fZero.ge⟩
  · obtain ⟨hfin, hsign, -⟩ := (roundsTo_iff_of_finite hpos.ne' (by rwa [abs_of_pos hpos]) a).1 h
    have hclear : ¬ a.toNat / 2 ^ 31 = 1 := mt hsign.1 hr.not_gt
    have hlt := a.isLt
    refine ⟨hfin, ?_⟩
    rw [valF_eq_fScaled, fScaled_of_lt (by omega)]
    positivity

/-- A real from the overflow threshold on rounds to the positive infinity. -/
theorem eq_infinity_of_roundsTo {r : ℚ} {a : F} (h : RoundsTo r a) (hle : 2 ^ 128 - 2 ^ 103 ≤ r) : a = 0x7F800000#32 := by
  have hr : 0 < r := lt_of_lt_of_le (by norm_num) hle
  rw [roundsTo_iff_of_overflow (by rwa [abs_of_pos hr]), if_neg hr.le.not_gt] at h
  exact h

/-! ## A configure that succeeds (R214, R219) -/

theorem statusWord_raise_ne_zero (e : ErrorCode) : statusWord e.code Flags.none 0 ≠ 0#32 := by
  cases e <;> decide

theorem raise_response_ne (s : State) (e : ErrorCode) : (s.raise e).response ≠ [0x00000000#32] := by
  rw [State.raise_response]
  exact fun h => statusWord_raise_ne_zero e (List.singleton_inj.1 h)

/-- A configure completes only on legal operands, and leaves the configured loop (R211, R219). -/
theorem pllConfigureAnswer_done {pb : Nat} {k : BitVec 4} {even : Bool} {var : BitVec 2} {freq bw minsig : CF} {u u' : Pll}
    {fl : Flags} {ws : List Word} (h : pllConfigureAnswer pb k even var freq bw minsig u = .done u' fl ws) :
    configureValid freq bw minsig = true ∧ ∃ v, u' = pllConfigured0 u v even freq bw minsig := by
  unfold pllConfigureAnswer at h
  split at h
  next => cases h
  next v _ =>
    split at h
    next hvalid =>
      cases h
      exact ⟨hvalid, v, rfl⟩
    next => cases h

/-- A PLL.CONFIGURE that is answered without an error was given legal operands and leaves the configured loop in its unit. -/
theorem pllConfigure_succeeds {s t : State} {k : BitVec 4} {even : Bool} {var : BitVec 2} {freq bw minsig : CF} {u : Pll}
    (h : exec (.pllConfigure k even var freq bw minsig) s = .next t) (hresponse : t.response = [0x00000000#32])
    (hu : t.pll[k.toNat]? = some u) :
    configureValid freq bw minsig = true ∧ ∃ u₀ v, u = pllConfigured0 u₀ v even freq bw minsig := by
  obtain ⟨-, rfl⟩ | ⟨u₀, hk, ⟨u', fl, ws, hdone, rfl⟩ | ⟨e, -, rfl⟩ | ⟨u', -, rfl⟩⟩ := onPll_next h
  · exact absurd hresponse (raise_response_ne _ _)
  · obtain ⟨hvalid, v, rfl⟩ := pllConfigureAnswer_done hdone
    rw [State.respond_pll, List.getElem?_set_self (List.getElem?_eq_some_iff.1 hk).1] at hu
    exact ⟨hvalid, u₀, v, (Option.some.inj hu).symm⟩
  · exact absurd hresponse (raise_response_ne _ _)
  · exact absurd hresponse (raise_response_ne _ _)

/-- Settles O48. -/
theorem frequencyRegistersAreOrdered : Obligations.FrequencyRegistersAreOrdered := by
  unfold Obligations.FrequencyRegistersAreOrdered
  intro s t k even var freq bw minsig u h hresponse hu
  obtain ⟨hvalid, u₀, v, rfl⟩ := pllConfigure_succeeds h hresponse hu
  have hok := pllOk_configured s.cfg u₀ v even hvalid
  have hfloor := rndCf_roundsTo minsig
  obtain ⟨-, -, -, -, -, -, hminsig, -⟩ := configureValid_true hvalid
  have hnonneg : 0 ≤ val64 minsig := by
    rw [val64_eq_cfScaled]
    exact div_nonneg (by exact_mod_cast hminsig) (by positivity)
  refine ⟨(finF_iff _).2 (hok.freq0_finite rfl), (finF_iff _).2 (hok.min_finite rfl), (finF_iff _).2 (hok.max_finite rfl),
    valF_fZero ▸ valF_lt_of_fgt (hok.min_pos rfl), valF_le_of_fge (hok.freq0_ge rfl), valF_le_of_fge (hok.freq0_le rfl),
    valF_fHalf ▸ valF_le_of_fge (hok.max_le_half rfl), roundsTo_nonneg hfloor hnonneg, eq_infinity_of_roundsTo hfloor⟩

end Sys2Proof.Proofs
end

section
/-!
PROOF. The error of a rounding (R112): relative to the rounded number one part in 2^24, and half a unit of 2^-149 for the
smallest. From it follows that a number below a value by that part stays below it when rounded.
-/

namespace Sys2Proof.Proofs

open Sys2Proof.Machine Sys2Proof.Claims

/-! ## The error of a rounding (R112) -/

theorem fIsNaN_rndUnits (n : ℤ) (d : Nat) : fIsNaN (rndUnits n d) = false := by
  have natural (m : Nat) : fIsNaN (rndUnits m d) = false :=
    fIsNaN_of_le (toNat_rndUnits m d ▸ rndMag_le m d)
  obtain ⟨m, rfl | rfl⟩ := n.eq_nat_or_neg
  · exact natural m
  · obtain rfl | hm := eq_or_ne m 0
    · exact natural 0
    · rw [rndUnits_neg hm, fIsNaN_fneg, natural]

theorem fScaled_rndUnits_neg (n : ℤ) (d : Nat) : fScaled (rndUnits (-n) d) = -fScaled (rndUnits n d) := by
  have natural (m : Nat) : fScaled (rndUnits (-m) d) = -fScaled (rndUnits m d) := by
    obtain rfl | hm := eq_or_ne m 0
    · rw [Nat.cast_zero, neg_zero, rndUnits, if_pos rfl]
      decide
    · rw [rndUnits_neg hm, fScaled_fneg]
  obtain ⟨m, rfl | rfl⟩ := n.eq_nat_or_neg
  · exact natural m
  · rw [natural, neg_neg, neg_neg]

theorem fScaled_rndUnits_natCast (n d : Nat) : fScaled (rndUnits n d) = fMag (rndUnits n d) := by
  have := rndMag_le n d
  exact fScaled_of_lt (by rw [toNat_rndUnits]; omega)

/-- A finite rounding of a magnitude is off by at most one part in 2^24 or half a unit. -/
theorem rndMag_error {n d : Nat} (hd : 0 < d) {a : F} (ha : a.toNat = rndMag n d) (hfin : rndMag n d < 0x7F800000) :
    2 ^ 24 * |(n : ℤ) - fMag a * d| ≤ max (n : ℤ) (2 ^ 23 * d) := by
  obtain ⟨-, hmag⟩ := fMag_rndMag ha hfin
  have hreach := le_of_droppedBits_pos hd (n := n)
  generalize droppedBits (n / d) = k at hmag hreach
  obtain ⟨hhalf, -⟩ := roundHalfEven_half n (d := d * 2 ^ k) (by positivity)
  have hkept : ((roundHalfEven n (d * 2 ^ k) : Nat) : ℤ) * (d * 2 ^ k : Nat) = fMag a * d := by
    rw [hmag]
    push_cast
    ring
  rw [hkept] at hhalf
  obtain rfl | hk := Nat.eq_zero_or_pos k
  · rw [pow_zero, mul_one] at hhalf
    omega
  · have hn : (2 : ℤ) ^ 23 * (d * 2 ^ k : Nat) ≤ n := by
      have h : 2 ^ 23 * (d * 2 ^ k) ≤ n := by
        have := hreach hk
        rwa [pow_add, mul_right_comm, mul_assoc] at this
      exact_mod_cast h
    omega

/-- A finite rounding is off by at most one part in 2^24 or half a unit. -/
theorem rndUnits_error (n : ℤ) {d : Nat} (hd : 0 < d) (hfin : fIsFinite (rndUnits n d) = true) :
    2 ^ 24 * |n - fScaled (rndUnits n d) * d| ≤ max |n| (2 ^ 23 * d) := by
  have natural (m : Nat) (hfin : fIsFinite (rndUnits m d) = true) :
      2 ^ 24 * |(m : ℤ) - fScaled (rndUnits m d) * d| ≤ max |(m : ℤ)| (2 ^ 23 * d) := by
    have hbelow : rndMag m d < 0x7F800000 := by
      refine lt_of_le_of_ne (rndMag_le m d) fun h => ?_
      have hinf : rndUnits m d = 0x7F800000#32 := BitVec.eq_of_toNat_eq ((toNat_rndUnits m d).trans h)
      rw [hinf] at hfin
      exact absurd hfin (by decide)
    rw [fScaled_rndUnits_natCast, Nat.abs_cast]
    exact rndMag_error hd (toNat_rndUnits m d) hbelow
  obtain ⟨m, rfl | rfl⟩ := n.eq_nat_or_neg
  · exact natural m hfin
  · obtain rfl | hm := eq_or_ne m 0
    · exact natural 0 hfin
    · have hfin' : fIsFinite (rndUnits m d) = true := by
        rwa [rndUnits_neg hm, ← finF_iff, finF_fneg, finF_iff] at hfin
      have h := natural m hfin'
      rwa [fScaled_rndUnits_neg, abs_neg, neg_mul, ← neg_sub', abs_neg]

/-! ## Roundings below a value -/

/-- A number less than `m` units by one part in 2^24 rounds to less than `m` units. -/
theorem fScaled_rndUnits_lt {n m : ℤ} {d : Nat} (hd : 0 < d) (hm : 2 ^ 23 < m) (hm' : m < 2 ^ 276)
    (h : 2 ^ 24 * n ≤ (2 ^ 24 - 1) * (m * d)) : fScaled (rndUnits n d) < m := by
  obtain ⟨k, rfl | rfl⟩ := n.eq_nat_or_neg
  · have hmd : m * d < 2 ^ 276 * d := mul_lt_mul_of_pos_right hm' (by exact_mod_cast hd)
    have hfin : fIsFinite (rndUnits k d) = true := by
      refine fIsFinite_of_lt (toNat_rndUnits k d ▸ lt_of_le_of_ne (rndMag_le k d) fun hinf => ?_)
      have := (rndMag_eq_infinity_iff k hd).1 hinf
      omega
    have herror := rndUnits_error k hd hfin
    have hsub := neg_abs_le ((k : ℤ) - fScaled (rndUnits k d) * d)
    rw [Nat.abs_cast] at herror
    have hhalf : 2 ^ 23 * (d : ℤ) < m * d := mul_lt_mul_of_pos_right hm (by exact_mod_cast hd)
    have hlt : fScaled (rndUnits k d) * d < m * d := by omega
    exact lt_of_mul_lt_mul_right hlt (Int.natCast_nonneg d)
  · rw [fScaled_rndUnits_neg, fScaled_rndUnits_natCast]
    omega

/-- A value below `2^(24+k)` units is below it by one part in 2^24: its fraction has 24 bits (R111). -/
theorem fScaled_gap {a : F} {k : Nat} (h : fScaled a < 2 ^ (24 + k)) :
    2 ^ 24 * fScaled a ≤ (2 ^ 24 - 1) * 2 ^ (24 + k) := by
  have hk : (0 : ℤ) < 2 ^ k := by positivity
  rw [pow_add] at h ⊢
  unfold fScaled at h ⊢
  split at h
  next hs =>
    rw [if_pos hs]
    omega
  next hs =>
    rw [if_neg hs]
    obtain hlow | hhigh := lt_or_ge (fMag a) (2 ^ (23 + k))
    · have hlow' : (fMag a : ℤ) < 2 ^ 23 * 2 ^ k := by
        rw [← pow_add]
        exact_mod_cast hlow
      omega
    · obtain ⟨j, hj⟩ := two_pow_dvd_fMag hhigh
      have hmag : (fMag a : ℤ) = 2 ^ k * j := by exact_mod_cast hj
      rw [hmag] at h ⊢
      have hj' : (j : ℤ) < 2 ^ 24 := by
        rw [mul_comm] at h
        exact lt_of_mul_lt_mul_right h hk.le
      have hprod : (2 : ℤ) ^ k * j ≤ 2 ^ k * (2 ^ 24 - 1) := mul_le_mul_of_nonneg_left (by omega) hk.le
      omega

/-! ## Small integers (R116) -/

/-- A magnitude of units that is a whole number of kept units rounds to itself. -/
theorem fMag_rndUnits_of_dvd {n : Nat} (hfin : n < 2 ^ 276) (hdvd : 2 ^ droppedBits n ∣ n) : fMag (rndUnits n 1) = n := by
  have hbelow : rndMag n 1 < 0x7F800000 := by
    refine lt_of_le_of_ne (rndMag_le n 1) fun hinf => ?_
    have := (rndMag_eq_infinity_iff n one_pos).1 hinf
    omega
  obtain ⟨-, hmag⟩ := fMag_rndMag (toNat_rndUnits n 1) hbelow
  rw [hmag, Nat.div_one, one_mul]
  have hround : roundHalfEven n (2 ^ droppedBits n) = n / 2 ^ droppedBits n := by
    have hrest := Nat.mod_eq_zero_of_dvd hdvd
    have hpos : 0 < 2 ^ droppedBits n := Nat.two_pow_pos _
    unfold roundHalfEven
    dsimp only
    rw [if_neg (by omega)]
  rw [hround, Nat.div_mul_cancel hdvd]

/-- `itof` is exact on integers of 24 bits. -/
theorem fScaled_itof {n : Nat} (hn : n < 2 ^ 24) : fScaled (itof n) = n * 2 ^ 149 := by
  have hcast : (n : ℤ) * 2 ^ 149 = (n * 2 ^ 149 : Nat) := by push_cast; rfl
  have hlt : n * 2 ^ 149 < 2 ^ 173 := by omega
  have hkept : droppedBits (n * 2 ^ 149) ≤ 149 := by
    obtain h0 | h0 := eq_or_ne (n * 2 ^ 149) 0
    · rw [h0]
      decide
    · have := (Nat.log2_lt h0).2 hlt
      unfold droppedBits
      omega
  rw [itof, rndF, hcast, fScaled_rndUnits_natCast,
    fMag_rndUnits_of_dvd (by omega) ((pow_dvd_pow 2 hkept).mul_left n)]

end Sys2Proof.Proofs
end

section
/-!
PROOF. The building blocks of the RSMP data commands (R148 to R153): a consumption in terms of ages, the convolution as one fold
over the taps, the phase of a distance below 1.
-/

namespace Sys2Proof.Proofs

open Sys2Proof.Machine Sys2Proof.Claims

/-! ## A consumption (R26, R148) -/

theorem ring_length_of_ready {u : Rsmp} (hu : RsmpReady u) : u.ring.length = u.ntaps.toNat := by
  simpa [Memory.wf] using hu.ok.ring_wf hu.valid

/-- The new write position in naturals. -/
theorem toNat_wpos_back {wpos ntaps : BitVec 16} (h : wpos.toNat < ntaps.toNat) :
    (if wpos = 0#16 then ntaps - 1#16 else wpos - 1#16).toNat = (wpos.toNat + ntaps.toNat - 1) % ntaps.toNat := by
  split
  next hzero =>
    subst hzero
    rw [Nat.mod_eq_of_lt (by simp at h ⊢; omega)]
    bv_omega
  next hne =>
    rw [show wpos.toNat + ntaps.toNat - 1 = (wpos.toNat - 1) + ntaps.toNat by bv_omega, Nat.add_mod_right,
      Nat.mod_eq_of_lt (by omega)]
    bv_omega

theorem rsmpConsume_eq {u : Rsmp} (hu : RsmpReady u) (x : Cplx) : rsmpConsume u x = some (consumed u x) := by
  obtain ⟨v, hv, -⟩ := rsmpConsume_of_ready x hu
  obtain ⟨w, hw, -, rfl⟩ := rsmpConsume_eq_some hv
  have hwpos : w.toNat = (u.wpos.toNat + u.ntaps.toNat - 1) % u.ntaps.toNat := by
    rw [hw, toNat_wpos_back (hu.ok.wpos_lt hu.valid)]
  rw [hv, consumed, ← hwpos, BitVec.ofNat_toNat, BitVec.setWidth_eq]

theorem ready_consumed {u : Rsmp} (hu : RsmpReady u) (x : Cplx) : RsmpReady (consumed u x) := by
  obtain ⟨v, hv, hready, -⟩ := rsmpConsume_of_ready x hu
  rw [rsmpConsume_eq hu x] at hv
  exact Option.some.inj hv ▸ hready

@[simp] theorem consumed_ntaps (u : Rsmp) (x : Cplx) : (consumed u x).ntaps = u.ntaps := rfl

theorem toNat_wpos_consumed {u : Rsmp} (x : Cplx) (hu : RsmpReady u) :
    (consumed u x).wpos.toNat = (u.wpos.toNat + u.ntaps.toNat - 1) % u.ntaps.toNat := by
  have hlt := Nat.mod_lt (u.wpos.toNat + u.ntaps.toNat - 1) (hu.ok.ntaps_pos hu.valid)
  have := u.ntaps.isLt
  rw [consumed, BitVec.toNat_ofNat, Nat.mod_eq_of_lt (by omega)]

theorem sampleOfAge_consumed_zero {u : Rsmp} (hu : RsmpReady u) (x : Cplx) : sampleOfAge (consumed u x) 0 = x := by
  have hlt := Nat.mod_lt (u.wpos.toNat + u.ntaps.toNat - 1) (hu.ok.ntaps_pos hu.valid)
  rw [sampleOfAge, toNat_wpos_consumed x hu, consumed_ntaps, Nat.add_zero, Nat.mod_mod, List.getD_eq_getElem?_getD,
    consumed, List.getElem?_set_self (by rwa [ring_length_of_ready hu]), Option.getD_some]

/-- Another sample has moved on by one age: its place in the ring is the same, and it is not the one just written. -/
theorem sampleOfAge_consumed_succ {u : Rsmp} (hu : RsmpReady u) (x : Cplx) {a : Nat} (ha : a + 1 < u.ntaps.toNat) :
    sampleOfAge (consumed u x) (a + 1) = sampleOfAge u a := by
  have hw := hu.ok.wpos_lt hu.valid
  have hplace : ((u.wpos.toNat + u.ntaps.toNat - 1) % u.ntaps.toNat + (a + 1)) % u.ntaps.toNat =
      (u.wpos.toNat + a) % u.ntaps.toNat := by
    rw [Nat.mod_add_mod, show u.wpos.toNat + u.ntaps.toNat - 1 + (a + 1) = u.wpos.toNat + a + u.ntaps.toNat by omega,
      Nat.add_mod_right]
  have hother : (u.wpos.toNat + u.ntaps.toNat - 1) % u.ntaps.toNat ≠ (u.wpos.toNat + a) % u.ntaps.toNat := by
    intro heq
    have hmod : u.wpos.toNat + u.ntaps.toNat - 1 ≡ u.wpos.toNat + a [MOD u.ntaps.toNat] := heq
    have hdvd := (Nat.modEq_iff_dvd' (by omega)).1 hmod.symm
    have := Nat.le_of_dvd (by omega) hdvd
    omega
  rw [sampleOfAge, toNat_wpos_consumed x hu, consumed_ntaps, hplace, sampleOfAge, consumed, List.getD_eq_getElem?_getD,
    List.getElem?_set_ne hother, ← List.getD_eq_getElem?_getD]

/-! ## The convolution (R152, R153) -/

/-- The link of the chain at tap `i`. -/
def chainLink (u : Rsmp) (p : Nat) (acc : Cplx) (i : Nat) : Cplx :=
  accumulate acc (u.taps.getD (p * u.ntaps.toNat + i) 0#32) (sampleOfAge u i)

theorem dot_eq_foldl (u : Rsmp) (p : Nat) : dot u p = (List.range u.ntaps.toNat).foldl (chainLink u p) Cplx.zero := rfl

theorem memRead_eq_getD {α : Type} {m : Memory α} {a : Nat} (h : a < m.length) (v : α) :
    memRead m a = some (m.getD a v) := by
  rw [memRead, List.getD_eq_getElem?_getD, List.getElem?_eq_getElem h, Option.getD_some]

theorem convolveFrom_eq {u : Rsmp} {p : Nat} (hu : RsmpReady u) (hp : p < u.phaseSteps.toNat) {left i : Nat}
    (hi : i + left ≤ u.ntaps.toNat) (acc : Cplx) :
    convolveFrom u p left i acc = some ((List.range' i left).foldl (chainLink u p) acc) := by
  induction left generalizing i acc with
  | zero => rfl
  | succ left ih =>
    have htaps : p * u.ntaps.toNat + i < u.taps.length := by
      have hlength : u.taps.length = u.phaseSteps.toNat * u.ntaps.toNat := by
        simpa [Memory.wf] using hu.ok.taps_wf hu.valid
      rw [hlength]
      exact bank_index_lt hp (by omega)
    have hring : (u.wpos.toNat + i) % u.ntaps.toNat < u.ring.length := by
      rw [ring_length_of_ready hu]
      exact Nat.mod_lt _ (hu.ok.ntaps_pos hu.valid)
    rw [convolveFrom, memRead_eq_getD htaps 0#32, memRead_eq_getD hring ⟨0#32, 0#32⟩]
    exact ih (by omega) _

theorem convolve_eq_dot {u : Rsmp} {p : Nat} (hu : RsmpReady u) (hp : p < u.phaseSteps.toNat) :
    convolve u p = some (dot u p) := by
  rw [convolve, convolveFrom_eq hu hp (by omega), dot_eq_foldl, List.range_eq_range']

/-- The taps that meet the ring elements from `WPOS` to its end, then those that meet the elements before it (R153). -/
theorem dot_eq_segments {u : Rsmp} (hu : RsmpReady u) (p : Nat) :
    dot u p = segment u p (u.ntaps.toNat - u.wpos.toNat) 0 u.wpos.toNat
      (segment u p 0 u.wpos.toNat (u.ntaps.toNat - u.wpos.toNat) Cplx.zero) := by
  have hw := hu.ok.wpos_lt hu.valid
  have hsplit : List.range u.ntaps.toNat = List.range (u.ntaps.toNat - u.wpos.toNat) ++
      (List.range u.wpos.toNat).map (u.ntaps.toNat - u.wpos.toNat + ·) := by
    rw [← List.range_add, Nat.sub_add_cancel hw.le]
  rw [dot_eq_foldl, hsplit, List.foldl_append, List.foldl_map]
  have first (acc : Cplx) : (List.range (u.ntaps.toNat - u.wpos.toNat)).foldl (chainLink u p) acc =
      segment u p 0 u.wpos.toNat (u.ntaps.toNat - u.wpos.toNat) acc := by
    refine List.foldl_ext _ _ _ fun acc j hj => ?_
    have hj := List.mem_range.1 hj
    rw [chainLink, sampleOfAge, Nat.zero_add, Nat.mod_eq_of_lt (by omega)]
  have second (acc : Cplx) :
      (List.range u.wpos.toNat).foldl (fun acc j => chainLink u p acc (u.ntaps.toNat - u.wpos.toNat + j)) acc =
        segment u p (u.ntaps.toNat - u.wpos.toNat) 0 u.wpos.toNat acc := by
    refine List.foldl_ext _ _ _ fun acc j hj => ?_
    have hj := List.mem_range.1 hj
    have hplace : u.wpos.toNat + (u.ntaps.toNat - u.wpos.toNat + j) = j + u.ntaps.toNat := by omega
    rw [chainLink, sampleOfAge, hplace, Nat.add_mod_right, Nat.mod_eq_of_lt (by omega), Nat.zero_add]
  rw [first, second]

/-- Settles O33. -/
theorem convolutionRunsThroughBothSegments : Obligations.ConvolutionRunsThroughBothSegments := by
  unfold Obligations.ConvolutionRunsThroughBothSegments
  intro u p hvalid hok hp
  have hu : RsmpReady u := ⟨hvalid, hok⟩
  rw [convolve_eq_dot hu hp, dot_eq_segments hu]
  rfl

/-- Settles O34. -/
theorem consumptionShiftsAges : Obligations.ConsumptionShiftsAges := by
  unfold Obligations.ConsumptionShiftsAges
  intro u x hvalid hok
  have hu : RsmpReady u := ⟨hvalid, hok⟩
  exact ⟨consumed u x, rsmpConsume_eq hu x, sampleOfAge_consumed_zero hu x, fun a => sampleOfAge_consumed_succ hu x, rfl⟩

/-! ## Distances (R149 to R151) -/

theorem fScaled_fOne : fScaled fOne = 2 ^ 149 := by decide +kernel

theorem fScaled_fTwo : fScaled fTwo = 2 ^ 150 := by decide +kernel

/-- What is not at least a value is below it, when neither is a NaN (R115). -/
theorem fge_eq_false_iff {a b : F} (ha : fIsNaN a = false) (hb : fIsNaN b = false) :
    fge a b = false ↔ fScaled a < fScaled b := by
  simp [fge, ha, hb]

theorem finF_fneg_fOne : finF (fneg fOne) := (finF_iff _).2 (by decide)

theorem fIsNaN_fsub_fOne {d : F} (hd : fIsNaN d = false) : fIsNaN (fsub d fOne) = false := by
  obtain hinf | hfin := inf_or_finite hd
  · rwa [fsub, fadd_of_inf_left ((infF_iff d).2 hinf) finF_fneg_fOne]
  · rw [fsub, fadd_of_finite ((finF_iff d).2 hfin) finF_fneg_fOne]
    split
    next => cases fSign d && fSign (fneg fOne) <;> decide
    next => exact fIsNaN_rndUnits _ _

/-- An infinity whose place in the order is below the last is the negative one. -/
theorem eq_negInf_of_lt {a : F} (hinf : fIsInf a = true) (hlt : fScaled a < 2 ^ 277) : a = 0xFF800000#32 := by
  obtain rfl | rfl := (infF_iff a).2 hinf
  · exact absurd hlt (by decide +kernel)
  · rfl

/-- The distance that a consumption leaves of one below 2 is below 1 (R151, R155). -/
theorem fScaled_fsub_fOne_lt {d : F} (hd : fIsNaN d = false) (hlt : fScaled d < fScaled fTwo) :
    fScaled (fsub d fOne) < fScaled fOne := by
  obtain hinf | hfin := inf_or_finite hd
  · obtain rfl := eq_negInf_of_lt hinf (hlt.trans (by decide +kernel))
    decide +kernel
  · have hgap := fScaled_gap (k := 126) (hlt.trans_eq fScaled_fTwo)
    rw [fsub, fadd_of_finite ((finF_iff d).2 hfin) finF_fneg_fOne, fScaled_fneg, fScaled_fOne]
    split
    next => cases fSign d && fSign (fneg fOne) <;> decide
    next => exact fScaled_rndUnits_lt one_pos (by omega) (by omega) (by push_cast; omega)

theorem finF_itof {n : Nat} (hn : n < 2 ^ 24) : finF (itof n) := by
  refine (finF_iff _).2 ((inf_or_finite (fIsNaN_rndUnits _ _)).resolve_left fun hinf => ?_)
  have h := fScaled_of_inf hinf
  rw [← rndF, ← itof, fScaled_itof hn] at h
  split at h <;> omega

/-- The phase product of a distance below 1 is below `PHASE_STEPS`: the rounding does not reach it (R150). -/
theorem fScaled_fmul_itof_lt {d : F} {n : Nat} (hd : fIsNaN d = false) (hlt : fScaled d < fScaled fOne) (hpos : 0 < n)
    (hn : n < 2 ^ 24) : fScaled (fmul d (itof n)) < n * 2 ^ 149 := by
  have hitof := fScaled_itof hn
  obtain hinf | hfin := inf_or_finite hd
  · obtain rfl := eq_negInf_of_lt hinf (hlt.trans (by decide +kernel))
    have hsign : fSign (itof n) = false := by
      by_contra hs
      rw [fScaled, if_pos (by simpa using hs)] at hitof
      omega
    have hne : valF (itof n) ≠ 0 := by
      rw [valF_eq_fScaled, hitof]
      positivity
    rw [fmul_of_inf ((infF_iff _).2 hinf) (not_nanF_of_finF (finF_itof hn)), if_neg hne, infOfSigns_eq, hsign]
    have hneg : fScaled (fInf (fSign 0xFF800000#32 != false)) = -2 ^ 277 := by decide +kernel
    omega
  · have hgap := fScaled_gap (k := 125) (hlt.trans_eq fScaled_fOne)
    rw [fmul_of_finite ((finF_iff d).2 hfin) (finF_itof hn), hitof]
    split
    next =>
      have hzero (b : Bool) : fScaled (fSignedZero b) = 0 := by cases b <;> decide
      rw [hzero]
      omega
    next =>
      refine fScaled_rndUnits_lt (by positivity) (by omega) (by omega) ?_
      have hscaled := mul_le_mul_of_nonneg_right hgap (show (0 : ℤ) ≤ n * 2 ^ 149 by positivity)
      rw [mul_assoc, mul_assoc, mul_comm ((2 : ℤ) ^ (24 + 125))] at hscaled
      exact_mod_cast hscaled

theorem floor_valF (a : F) : ⌊valF a⌋ = floorF a := by
  have hfloor := Rat.floor_intCast_div_natCast (fScaled a) (2 ^ 149)
  rw [Nat.cast_pow, Nat.cast_ofNat, Nat.cast_pow, Nat.cast_ofNat] at hfloor
  rw [valF_eq_fScaled, hfloor, floorF]

/-- A distance below 1 has a phase (R150, R151). -/
theorem phaseIndex_eq {u : Rsmp} {d : F} (hu : RsmpReady u) (hd : fIsNaN d = false) (hlt : fScaled d < fScaled fOne) :
    phaseIndex u d = some (phaseOf u d) := by
  have hpos := hu.ok.steps_pos hu.valid
  have hle := hu.ok.steps_le hu.valid
  have hprod := fScaled_fmul_itof_lt hd hlt hpos (hle.trans_lt (by decide))
  have hnotInf : fmul d (itof u.phaseSteps.toNat) ≠ fInf false := by
    intro h
    have hinf : fScaled (fInf false) = 2 ^ 277 := by decide +kernel
    rw [h, hinf] at hprod
    simp only [Config.maxPhaseSteps] at hle
    omega
  unfold phaseIndex phaseOf
  dsimp only
  rw [if_neg hnotInf, floor_valF]
  refine if_neg ?_
  split
  next => omega
  next =>
    unfold floorF
    omega

theorem phaseOf_lt {u : Rsmp} {d : F} (hu : RsmpReady u) (hd : fIsNaN d = false) (hlt : fScaled d < fScaled fOne) :
    phaseOf u d < u.phaseSteps.toNat :=
  phaseIndex_lt (phaseIndex_eq hu hd hlt)

/-! ## Answers of the data commands (R154 to R156) -/

theorem rsmpData_eq {u : Rsmp} {d : F} (hu : RsmpReady u) (hd : fIsNaN d = false) (a : Answer Rsmp) :
    rsmpData u d a = a := by
  rw [rsmpData, rsmpConfigured_true hu.valid, hd, if_neg Bool.false_ne_true]

/-- The output that the unit `u` computes at the distance `d` (R150, R152). -/
def outputAt (u : Rsmp) (d : F) : Cplx := dot u (phaseOf u d)

/-- The end that the three data commands share: at a distance of 1 or more the next input is asked for, below 1 an output is
answered. -/
def answerAt (u : Rsmp) (d : F) (eaten : Bool) : Answer Rsmp :=
  if fge d fOne then .done u (Flags.rsmp false true) [d]
  else .done u (Flags.rsmp true eaten) [d, (outputAt u d).re, (outputAt u d).im]

theorem answerAt_of_ge (u : Rsmp) {d : F} (h : fge d fOne = true) (eaten : Bool) :
    answerAt u d eaten = .done u (Flags.rsmp false true) [d] := if_pos h

theorem answerAt_of_lt (u : Rsmp) {d : F} (h : fge d fOne = false) (eaten : Bool) :
    answerAt u d eaten = .done u (Flags.rsmp true eaten) [d, (outputAt u d).re, (outputAt u d).im] :=
  if_neg (ne_true_of_eq_false h)

theorem rsmpOutput_eq {u : Rsmp} {d : F} (hu : RsmpReady u) (hd : fIsNaN d = false) (hlt : fge d fOne = false)
    (eaten : Bool) : rsmpOutput u d (phaseOf u d) eaten = answerAt u d eaten := by
  have hp := phaseOf_lt hu hd ((fge_eq_false_iff hd (by decide)).1 hlt)
  rw [rsmpOutput, convolve_eq_dot hu hp, answerAt_of_lt u hlt]
  rfl

theorem rsmpResampleOutput_eq {u : Rsmp} {d : F} (hu : RsmpReady u) (hd : fIsNaN d = false) (hlt : fge d fOne = false)
    (eaten : Bool) : rsmpResampleOutput u d eaten = answerAt u d eaten := by
  rw [rsmpResampleOutput, phaseIndex_eq hu hd ((fge_eq_false_iff hd (by decide)).1 hlt)]
  exact rsmpOutput_eq hu hd hlt eaten

theorem rsmpDecimateAnswer_eq {u : Rsmp} {d : F} (hu : RsmpReady u) (hd : fIsNaN d = false) (x : Cplx) :
    rsmpDecimateAnswer d x u = answerAt (consumed u x) (fsub d fOne) true := by
  rw [rsmpDecimateAnswer, rsmpData_eq hu hd]
  dsimp only
  rw [rsmpConsume_eq hu x]
  dsimp only
  cases hone : fge (fsub d fOne) fOne with
  | true => exact (answerAt_of_ge _ hone true).symm
  | false => exact rsmpResampleOutput_eq (ready_consumed hu x) (fIsNaN_fsub_fOne hd) hone true

/-- The distance that a consumption leaves of one below 2 is no longer at least 1 (R151). -/
theorem fge_fsub_fOne {d : F} (hd : fIsNaN d = false) (hlt : fge d fTwo = false) : fge (fsub d fOne) fOne = false :=
  (fge_eq_false_iff (fIsNaN_fsub_fOne hd) (by decide)).2
    (fScaled_fsub_fOne_lt hd ((fge_eq_false_iff hd (by decide)).1 hlt))

theorem rsmpInterpolateAnswer_eq {u : Rsmp} {d : F} (hu : RsmpReady u) (hd : fIsNaN d = false)
    (hlt : fge d fTwo = false) (x : Cplx) :
    rsmpInterpolateAnswer d x u =
      if fge d fOne then answerAt (consumed u x) (fsub d fOne) true else answerAt u d false := by
  rw [rsmpInterpolateAnswer, rsmpData_eq hu hd]
  cases hone : fge d fOne with
  | true =>
    have hrest := fge_fsub_fOne hd hlt
    have hphase := phaseIndex_eq hu (fIsNaN_fsub_fOne hd) ((fge_eq_false_iff (fIsNaN_fsub_fOne hd) (by decide)).1 hrest)
    simp only [if_true, hphase, rsmpConsume_eq hu x]
    exact rsmpOutput_eq (ready_consumed hu x) (fIsNaN_fsub_fOne hd) hrest true
  | false =>
    simp only [Bool.false_eq_true, if_false]
    exact rsmpResampleOutput_eq hu hd hone false

theorem rsmpResampleAnswer_eq {u : Rsmp} {d : F} (hu : RsmpReady u) (hd : fIsNaN d = false) (cin : Bool) (x : Cplx) :
    rsmpResampleAnswer cin d x u =
      if fge d fOne && !cin then answerAt (consumed u x) (fsub d fOne) true else answerAt u d cin := by
  rw [rsmpResampleAnswer, rsmpData_eq hu hd, rsmpConsume_eq hu x]
  cases hone : fge d fOne with
  | true =>
    cases cin with
    | true => exact (answerAt_of_ge u hone true).symm
    | false =>
      simp only [if_true, Bool.false_eq_true, if_false, Bool.not_false, Bool.and_self]
      cases hrest : fge (fsub d fOne) fOne with
      | true => exact (answerAt_of_ge _ hrest true).symm
      | false => exact rsmpResampleOutput_eq (ready_consumed hu x) (fIsNaN_fsub_fOne hd) hrest true
  | false => exact rsmpResampleOutput_eq hu hd hone cin

/-! ## The data commands (R154 to R156, R160) -/

theorem statusWord_ask : statusWord 0 (Flags.rsmp false true) 1 = 0x00010200#32 := by decide

theorem statusWord_output (eaten : Bool) :
    statusWord 0 (Flags.rsmp true eaten) 3 = if eaten then 0x00030300#32 else 0x00030100#32 := by
  cases eaten <;> decide

/-- What becomes of the machine when its unit `k` ends a data command: the unit is written and the response sent (R80). -/
theorem onRsmp_answerAt {s : State} {k : BitVec 4} {u v : Rsmp} {f : Rsmp → Answer Rsmp} {d : F} {eaten : Bool}
    (hk : s.rsmp[k.toNat]? = some u) (hf : f u = answerAt v d eaten) :
    onRsmp k s f = .next { s with
      rsmp := s.rsmp.set k.toNat v
      response :=
        if fge d fOne then [0x00010200#32, d]
        else [if eaten then 0x00030300#32 else 0x00030100#32, d, (outputAt v d).re, (outputAt v d).im] } := by
  have hsettle : onRsmp k s f = settleAnswer .rsmp k s (f u) := onUnit_of_some (κ := .rsmp) f hk
  rw [hsettle, hf, ← statusWord_ask, ← statusWord_output]
  cases hone : fge d fOne with
  | true =>
    rw [answerAt_of_ge v hone]
    rfl
  | false =>
    rw [answerAt_of_lt v hone]
    rfl

/-- Settles O28. -/
theorem decimateConsumesAndAnswers : Obligations.DecimateConsumesAndAnswers := by
  unfold Obligations.DecimateConsumesAndAnswers
  intro s k d re im u hk hvalid hok hd
  exact onRsmp_answerAt hk (rsmpDecimateAnswer_eq ⟨hvalid, hok⟩ hd ⟨re, im⟩)

/-- Settles O29. -/
theorem interpolateAlwaysAnswers : Obligations.InterpolateAlwaysAnswers := by
  unfold Obligations.InterpolateAlwaysAnswers
  intro s k d re im u hk hvalid hok hd hlt
  have hanswer := rsmpInterpolateAnswer_eq ⟨hvalid, hok⟩ hd hlt ⟨re, im⟩
  cases hone : fge d fOne with
  | true =>
    rw [hone, if_pos rfl] at hanswer
    have hrest := fge_fsub_fOne hd hlt
    have hexec := onRsmp_answerAt hk hanswer
    rw [hrest] at hexec
    simp only [show fge d 0x3F800000#32 = true from hone, if_true]
    exact hexec
  | false =>
    rw [hone, if_neg Bool.false_ne_true] at hanswer
    have hexec := onRsmp_answerAt hk hanswer
    rw [hone] at hexec
    simp only [show fge d 0x3F800000#32 = false from hone, Bool.false_eq_true, if_false]
    exact hexec

/-- Settles O30. -/
theorem resampleFollowsItsLoop : Obligations.ResampleFollowsItsLoop := by
  unfold Obligations.ResampleFollowsItsLoop
  intro s k cin d re im u hk hvalid hok hd eats
  have hanswer := rsmpResampleAnswer_eq ⟨hvalid, hok⟩ hd cin ⟨re, im⟩
  cases heats : eats with
  | true =>
    have hexec := onRsmp_answerAt hk (hanswer.trans (if_pos heats))
    simp only [if_true, Bool.or_true]
    exact hexec
  | false =>
    have hexec := onRsmp_answerAt hk (hanswer.trans (if_neg (ne_true_of_eq_false heats)))
    simp only [Bool.false_eq_true, if_false, Bool.or_false]
    exact hexec

/-- Settles O32: on a configured unit all three commands end in the same answer of the unit that has consumed the sample. -/
theorem modesAgreeFromOneToTwo : Obligations.ModesAgreeFromOneToTwo := by
  unfold Obligations.ModesAgreeFromOneToTwo
  intro s k d re im hs hone hlt
  have hd : fIsNaN d = false := by
    rw [fge_iff, nanF_iff, Bool.not_eq_true] at hone
    exact hone.1
  have agree {f g : Rsmp → Answer Rsmp} (h : ∀ u ∈ s.rsmp, f u = g u) : onRsmp k s f = onRsmp k s g := by
    unfold onRsmp
    split
    next => rfl
    next u hk => rw [h u (List.mem_of_getElem? hk)]
  have unconfigured {u : Rsmp} (hv : ¬ u.cfgValid = true) (a : Answer Rsmp) :
      rsmpData u d a = .error .notConfigured := if_neg hv
  refine ⟨agree fun u hu => ?_, agree fun u hu => ?_⟩
  · by_cases hv : u.cfgValid = true
    · rw [rsmpInterpolateAnswer_eq ⟨hv, hs u hu⟩ hd hlt, rsmpDecimateAnswer_eq ⟨hv, hs u hu⟩ hd]
      exact if_pos hone
    · exact (unconfigured hv _).trans (unconfigured hv _).symm
  · by_cases hv : u.cfgValid = true
    · rw [rsmpResampleAnswer_eq ⟨hv, hs u hu⟩ hd, rsmpDecimateAnswer_eq ⟨hv, hs u hu⟩ hd, Bool.not_false, Bool.and_true]
      exact if_pos hone
    · exact (unconfigured hv _).trans (unconfigured hv _).symm

end Sys2Proof.Proofs
end

section
/-!
PROOF. RSMP.CREATE (R141 to R147): the check of the operands is that of R142, a bank is its rows in order, and the rows of two
opposite phases mirror each other.
-/

namespace Sys2Proof.Proofs

open Sys2Proof.Machine Sys2Proof.Claims

/-! ## The operands (R117, R142) -/

theorem fin64_iff (c : CF) : fin64 c ↔ cfUsable c = true := by
  rw [fin64, cfUsable, bne_iff_ne, cfExp_eq]

theorem val64_lt_iff (c d : CF) (m : ℕ) (hm : 0 < m) : val64 c < val64 d / m ↔ m * cfScaled c < cfScaled d := by
  have hm' : (0 : ℚ) < m := by exact_mod_cast hm
  rw [val64_eq_cfScaled, val64_eq_cfScaled, div_right_comm, div_lt_div_iff_of_pos_right (by positivity), lt_div_iff₀' hm']
  exact_mod_cast Iff.rfl

theorem val64_pos_iff (c : CF) : 0 < val64 c ↔ 0 < cfScaled c := by
  rw [val64_eq_cfScaled, div_pos_iff_of_pos_right (by positivity)]
  exact_mod_cast Iff.rfl

/-- The check of the machine is that of R142. -/
theorem createValid_iff (n t : Word) (rate cutoff : CF) : createValid n t rate cutoff = true ↔ createLegal n t rate cutoff := by
  have hhalf := val64_lt_iff cutoff rate 2 two_pos
  rw [Nat.cast_ofNat, Nat.cast_ofNat] at hhalf
  simp only [createValid, createLegal, Bool.and_eq_true, decide_eq_true_eq, fin64_iff, val64_pos_iff, hhalf]
  simp only [Config.maxPhaseSteps, Config.maxNtaps, Config.maxBank]
  tauto

/-! ## The commands (R141, R146, R147) -/

/-- Settles O23. -/
theorem createBuildsBank : Obligations.CreateBuildsBank := by
  unfold Obligations.CreateBuildsBank
  intro s k n t rate cutoff u bank hk hlegal hbank
  have hanswer : rsmpCreateAnswer k n t rate cutoff u =
      .done (rsmpCreated u n.toNat t.toNat bank) Flags.none [] := by
    rw [rsmpCreateAnswer, if_pos ((createValid_iff n t rate cutoff).2 hlegal), hbank]
  have hsettle : exec (.rsmpCreate k n t rate cutoff) s = settleAnswer .rsmp k s (rsmpCreateAnswer k n t rate cutoff u) :=
    onUnit_of_some (κ := .rsmp) _ hk
  rw [hsettle, hanswer]
  rfl

/-- Settles O24. -/
theorem createRejects : Obligations.CreateRejects := by
  unfold Obligations.CreateRejects
  intro s k n t rate cutoff u hk hreject
  have hanswer : rsmpCreateAnswer k n t rate cutoff u = .invalid (rsmpUnspecified k u) := by
    rw [rsmpCreateAnswer]
    split
    next hvalid =>
      have hnone := hreject.resolve_left (not_not.2 ((createValid_iff n t rate cutoff).1 hvalid))
      rw [hnone]
    next => rfl
  have hsettle : exec (.rsmpCreate k n t rate cutoff) s = settleAnswer .rsmp k s (rsmpCreateAnswer k n t rate cutoff u) :=
    onUnit_of_some (κ := .rsmp) _ hk
  refine ⟨rsmpUnspecified k u, rfl, ?_⟩
  rw [hsettle, hanswer]
  rfl

/-! ## The rows of a bank (R62, R144, R145) -/

/-- Tap `i` of phase `p` of a designed bank is tap `i` of that phase's normalised row. -/
theorem designRows_getElem? {n t fc fs count q : Nat} {bank : List F} (h : designRows n t fc fs count q = some bank)
    {p i : Nat} (hp : p < count) (hi : i < t) :
    ∃ row, normalizeRow (prototypeRow n t fc fs (q + p)) = some row ∧ bank[p * t + i]? = row[i]? := by
  induction count generalizing q p bank with
  | zero => omega
  | succ count ih =>
    unfold designRows at h
    split at h
    next row rest hrow hrest =>
      cases h
      have ht : row.length = t := by simpa [prototypeRow] using (normalizeRow_eq_some hrow).1
      cases p with
      | zero =>
        refine ⟨row, hrow, ?_⟩
        rw [List.getElem?_append_left (by omega), Nat.zero_mul, Nat.zero_add]
      | succ p =>
        obtain ⟨row', hrow', hbank⟩ := ih hrest (p := p) (by omega)
        refine ⟨row', by rwa [show q + (p + 1) = q + 1 + p by omega], ?_⟩
        rw [← hbank, List.getElem?_append_right (by rw [ht, Nat.succ_mul]; omega), ht]
        congr 1
        rw [Nat.succ_mul]
        omega
    next => cases h

/-! ## The mirror symmetry of the prototype (R143, R145) -/

theorem cosTurn_reflect {k m : Nat} (h : k ≤ m) : cosTurn ((m - k : Nat) : ℤ) m = cosTurn k m := by
  obtain rfl | hpos := Nat.eq_zero_or_pos k
  · rw [Nat.sub_zero, cosTurn, cosTurn, Nat.cast_zero, Int.emod_self, Int.zero_emod]
  obtain rfl | hlt := h.eq_or_lt
  · rw [Nat.sub_self, cosTurn, cosTurn, Nat.cast_zero, Int.emod_self, Int.zero_emod]
  have hmod (j : Nat) (hj : j < m) : ((j : ℤ) % m).toNat = j := by
    rw [← Int.natCast_mod, Int.toNat_natCast, Nat.mod_eq_of_lt hj]
  have hmin : min (m - k) (m - (m - k)) = min k (m - k) := by omega
  rw [cosTurn, cosTurn, hmod k hlt, hmod (m - k) (by omega), hmin]

theorem windowHundred_reflect {k len : Nat} (h : k < len) : windowHundred (len - 1 - k) len = windowHundred k len := by
  rw [windowHundred, windowHundred, cosTurn_reflect (by omega)]

theorem sincPi_neg (a : ℤ) (b : Nat) : sincPi (-a) b = sincPi a b := by
  rw [sincPi, Int.natAbs_neg, ← sincPi]

theorem prototypeTap_reflect {n len fc fs k : Nat} (h : k < len) :
    prototypeTap n len fc fs (len - 1 - k) = prototypeTap n len fc fs k := by
  have harg : (fc : ℤ) * (2 * ((len - 1 - k : Nat) : ℤ) - (len - 1 : Nat)) = -(fc * (2 * (k : ℤ) - (len - 1 : Nat))) := by
    rw [← mul_neg]
    congr 1
    omega
  rw [prototypeTap, windowHundred_reflect h, harg, sincPi_neg, ← prototypeTap]

theorem prototypeRow_reflect {n t fc fs p : Nat} (hp : p < n) :
    prototypeRow n t fc fs (n - 1 - p) = (prototypeRow n t fc fs p).reverse := by
  refine List.ext_getElem (by simp [prototypeRow]) fun i hi _ => ?_
  have hi : i < t := by simpa [prototypeRow] using hi
  obtain ⟨j, rfl⟩ := Nat.exists_eq_add_of_lt hi
  have hj : i + j + 1 - 1 - i = j := by omega
  have hlast : j * n + p < n * (i + j + 1) := by
    rw [mul_comm n]
    exact bank_index_lt (by omega) hp
  have hplace : i * n + (n - 1 - p) = n * (i + j + 1) - 1 - (j * n + p) := by
    have hmul : n * (i + j + 1) = i * n + j * n + n := by ring
    omega
  simp only [prototypeRow, List.getElem_map, List.getElem_range, List.getElem_reverse, List.length_map, List.length_range, hj]
  rw [hplace, prototypeTap_reflect hlast]

theorem enclSum_eq_foldr (es : List Encl) : enclSum es = es.foldr enclAdd (enclOfInt 0) := by
  induction es with
  | nil => rfl
  | cons e es ih => rw [enclSum, ih, List.foldr_cons]

theorem enclSum_reverse (es : List Encl) : enclSum es.reverse = enclSum es := by
  have hcomm : LeftCommutative enclAdd := ⟨fun a b c => by simp only [enclAdd, add_left_comm]⟩
  rw [enclSum_eq_foldr, enclSum_eq_foldr]
  exact (List.reverse_perm es).foldr_eq _

theorem normalizeRow_reverse (gs : List Encl) : normalizeRow gs.reverse = (normalizeRow gs).map List.reverse := by
  unfold normalizeRow
  dsimp only
  rw [enclSum_reverse]
  split_ifs <;> simp [List.map_reverse]

/-- Settles O27: the rows of opposite phases are normalised from mirrored prototypes. -/
theorem bankIsMirrorSymmetric : Obligations.BankIsMirrorSymmetric := by
  unfold Obligations.BankIsMirrorSymmetric
  intro n t rate cutoff bank hbank p i hp hi
  obtain ⟨row, hrow, hread⟩ := designRows_getElem? hbank hp hi
  obtain ⟨row', hrow', hread'⟩ := designRows_getElem? hbank (p := n - 1 - p) (i := t - 1 - i) (by omega) (by omega)
  rw [Nat.zero_add] at hrow hrow'
  rw [prototypeRow_reflect hp, normalizeRow_reverse, hrow] at hrow'
  obtain rfl := Option.some.inj hrow'
  have ht : row.length = t := by simpa [prototypeRow] using (normalizeRow_eq_some hrow).1
  rw [hread, hread', List.getElem?_reverse (by omega), ht]
  congr 1
  omega

end Sys2Proof.Proofs
end

section
/-!
PROOF. The literal of π (R120): Machin's formula with the two series of the arc tangent cut off where a term is below 2^-260.
-/

namespace Sys2Proof.Proofs

open Sys2Proof.Machine Sys2Proof.Claims

/-! ## Alternating series -/

/-- An alternating series of falling terms differs from an even number of its terms by at most the next one. -/
theorem alternating_sum_bounds {f : ℕ → ℝ} {l : ℝ} (hsum : HasSum (fun n => (-1) ^ n * f n) l) (hf : Antitone f) (k : ℕ) :
    ∑ i ∈ Finset.range (2 * k), (-1) ^ i * f i ≤ l ∧ l ≤ ∑ i ∈ Finset.range (2 * k), (-1) ^ i * f i + f (2 * k) := by
  refine ⟨hf.alternating_series_le_tendsto hsum.tendsto_sum_nat k, ?_⟩
  have h := hf.tendsto_le_alternating_series hsum.tendsto_sum_nat k
  rwa [Finset.sum_range_succ, (even_two_mul k).neg_one_pow, one_mul] at h

/-! ## The arc tangent of 1/5 and of 1/239 -/

/-- Term `n` of the series of `arctan (1 / x)`, without its sign. -/
def arctanTerm (x n : ℕ) : ℚ := 1 / (x ^ (2 * n + 1) * (2 * n + 1))

/-- The first `k` terms of the series of `arctan (1 / x)`. -/
def arctanSum (x k : ℕ) : ℚ := ∑ i ∈ Finset.range k, (-1) ^ i * arctanTerm x i

theorem arctanTerm_antitone {x : ℕ} (hx : 1 ≤ x) : Antitone fun n => ((arctanTerm x n : ℚ) : ℝ) := by
  refine antitone_nat_of_succ_le fun n => ?_
  have hx' : (1 : ℚ) ≤ x := by exact_mod_cast hx
  have hterm : arctanTerm x (n + 1) ≤ arctanTerm x n := by
    unfold arctanTerm
    have hpow : (x : ℚ) ^ (2 * n + 1) ≤ x ^ (2 * (n + 1) + 1) := pow_le_pow_right₀ hx' (by omega)
    gcongr
    omega
  exact_mod_cast hterm

theorem arctan_bounds {x : ℕ} (hx : 1 < x) (k : ℕ) :
    ((arctanSum x (2 * k) : ℚ) : ℝ) ≤ Real.arctan (x : ℝ)⁻¹ ∧
      Real.arctan (x : ℝ)⁻¹ ≤ ((arctanSum x (2 * k) + arctanTerm x (2 * k) : ℚ) : ℝ) := by
  have hx' : (1 : ℝ) < x := by exact_mod_cast hx
  have hnorm : ‖(x : ℝ)⁻¹‖ < 1 := by
    rw [norm_inv, Real.norm_natCast]
    exact inv_lt_one_of_one_lt₀ hx'
  have hsum : HasSum (fun n => (-1) ^ n * ((arctanTerm x n : ℚ) : ℝ)) (Real.arctan (x : ℝ)⁻¹) := by
    convert Real.hasSum_arctan hnorm using 2 with n
    unfold arctanTerm
    push_cast
    rw [inv_pow, mul_div_assoc, inv_eq_one_div, div_div]
  have h := alternating_sum_bounds hsum (arctanTerm_antitone hx.le) k
  unfold arctanSum
  push_cast
  exact h

/-! ## π (R120) -/

theorem machin : Real.pi = 16 * Real.arctan ((5 : ℕ) : ℝ)⁻¹ - 4 * Real.arctan ((239 : ℕ) : ℝ)⁻¹ := by
  have h := Real.four_mul_arctan_inv_5_sub_arctan_inv_239
  push_cast
  linarith

theorem enclPi_hi : enclPi.hi = enclPi.lo + 1 := rfl

theorem enclPi_lo_le : (enclPi.lo : ℝ) ≤ Real.pi * enclOne := by
  have hseries : (enclPi.lo : ℚ) ≤
      (16 * arctanSum 5 (2 * 29) - 4 * (arctanSum 239 (2 * 9) + arctanTerm 239 (2 * 9))) * enclOne := by
    decide +kernel
  have h5 := (arctan_bounds (x := 5) (by norm_num) 29).1
  have h239 := (arctan_bounds (x := 239) (by norm_num) 9).2
  rw [machin, ← Rat.cast_intCast]
  refine (Rat.cast_le.2 hseries).trans ?_
  rw [Rat.cast_mul, Rat.cast_natCast, Rat.cast_sub, Rat.cast_mul, Rat.cast_mul, Rat.cast_ofNat, Rat.cast_ofNat]
  gcongr

theorem le_enclPi_hi : Real.pi * enclOne ≤ enclPi.hi := by
  have hseries : (16 * (arctanSum 5 (2 * 29) + arctanTerm 5 (2 * 29)) - 4 * arctanSum 239 (2 * 9)) * enclOne ≤
      (enclPi.hi : ℚ) := by
    decide +kernel
  have h5 := (arctan_bounds (x := 5) (by norm_num) 29).2
  have h239 := (arctan_bounds (x := 239) (by norm_num) 9).1
  rw [machin, ← Rat.cast_intCast]
  refine le_trans ?_ (Rat.cast_le.2 hseries)
  rw [Rat.cast_mul, Rat.cast_natCast, Rat.cast_sub, Rat.cast_mul, Rat.cast_mul, Rat.cast_ofNat, Rat.cast_ofNat]
  gcongr

end Sys2Proof.Proofs
end

section
/-!
PROOF. The operations on enclosures (R120): when both ends of each operand are near a real, both ends of the result are near
the result's real, with an error bound for each operation.
-/

namespace Sys2Proof.Proofs

open Sys2Proof.Machine Sys2Proof.Claims

/-! ## Nearness -/

/-- Both ends of the enclosure are the real `x` to within `e` units of 2^-256. -/
structure EnclNear (a : Encl) (x e : ℝ) : Prop where
  lo : |(a.lo : ℝ) - x * enclOne| ≤ e
  hi : |(a.hi : ℝ) - x * enclOne| ≤ e

theorem enclOne_eq : (enclOne : ℝ) = 2 ^ 256 := by
  unfold enclOne
  norm_num

theorem enclOne_pos : (0 : ℝ) < enclOne := by
  rw [enclOne_eq]
  positivity

theorem EnclNear.nonneg {a : Encl} {x e : ℝ} (h : EnclNear a x e) : 0 ≤ e := (abs_nonneg _).trans h.lo

theorem EnclNear.mono {a : Encl} {x e e' : ℝ} (h : EnclNear a x e) (he : e ≤ e') : EnclNear a x e' :=
  ⟨h.lo.trans he, h.hi.trans he⟩

/-- Whichever end is taken, it is near. -/
theorem EnclNear.ite_hi_lo {a : Encl} {x e : ℝ} (h : EnclNear a x e) (p : Prop) [Decidable p] :
    |((if p then a.hi else a.lo : ℤ) : ℝ) - x * enclOne| ≤ e := by
  split
  · exact h.hi
  · exact h.lo

theorem EnclNear.ite_lo_hi {a : Encl} {x e : ℝ} (h : EnclNear a x e) (p : Prop) [Decidable p] :
    |((if p then a.lo else a.hi : ℤ) : ℝ) - x * enclOne| ≤ e := by
  split
  · exact h.lo
  · exact h.hi

/-! ## Rounding outward -/

theorem abs_ediv_sub_le (n : ℤ) {d : ℤ} (hd : 0 < d) : |((n / d : ℤ) : ℝ) - n / d| ≤ 1 := by
  have hd' : (0 : ℝ) < d := by exact_mod_cast hd
  have h := abs_ediv_div_sub_le n hd
  rw [← div_div, ← sub_div, abs_div, abs_of_pos hd', div_le_div_iff_of_pos_right hd'] at h
  exact h

theorem abs_ceilDiv_sub_le (n : ℤ) {d : ℕ} (hd : 0 < d) : |(ceilDiv n d : ℝ) - n / d| ≤ 1 := by
  have h := abs_ediv_sub_le (-n) (d := d) (by exact_mod_cast hd)
  rw [ceilDiv, Int.cast_neg, ← abs_neg]
  convert h using 2
  push_cast
  ring

/-- A rounding outward of a quotient near `c` is near `c`. -/
theorem ediv_near {n d : ℤ} (hd : 0 < d) {c e : ℝ} (h : |(n : ℝ) / d - c| ≤ e) : |((n / d : ℤ) : ℝ) - c| ≤ e + 1 := by
  have hround := abs_ediv_sub_le n hd
  calc |((n / d : ℤ) : ℝ) - c| ≤ |((n / d : ℤ) : ℝ) - n / d| + |(n : ℝ) / d - c| := abs_sub_le _ _ _
    _ ≤ e + 1 := by linarith

theorem ceilDiv_near {n : ℤ} {d : ℕ} (hd : 0 < d) {c e : ℝ} (h : |(n : ℝ) / d - c| ≤ e) : |(ceilDiv n d : ℝ) - c| ≤ e + 1 := by
  have hround := abs_ceilDiv_sub_le n hd
  calc |(ceilDiv n d : ℝ) - c| ≤ |(ceilDiv n d : ℝ) - n / d| + |(n : ℝ) / d - c| := abs_sub_le _ _ _
    _ ≤ e + 1 := by linarith

/-! ## Sums and multiples -/

theorem enclOfInt_near (n : ℤ) : EnclNear (enclOfInt n) n 0 := by
  constructor <;> simp [enclOfInt]

theorem enclNeg_near {a : Encl} {x e : ℝ} (h : EnclNear a x e) : EnclNear (enclNeg a) (-x) e := by
  have flip (m : ℤ) : |((-m : ℤ) : ℝ) - -x * enclOne| = |(m : ℝ) - x * enclOne| := by
    rw [← abs_neg]
    congr 1
    push_cast
    ring
  exact ⟨(flip _).trans_le h.hi, (flip _).trans_le h.lo⟩

theorem enclAdd_near {a b : Encl} {x y e e' : ℝ} (ha : EnclNear a x e) (hb : EnclNear b y e') :
    EnclNear (enclAdd a b) (x + y) (e + e') := by
  have split (m n : ℤ) : |((m + n : ℤ) : ℝ) - (x + y) * enclOne| ≤ |(m : ℝ) - x * enclOne| + |(n : ℝ) - y * enclOne| := by
    refine le_of_eq_of_le ?_ (abs_add_le _ _)
    congr 1
    push_cast
    ring
  exact ⟨(split _ _).trans (add_le_add ha.lo hb.lo), (split _ _).trans (add_le_add ha.hi hb.hi)⟩

theorem enclSub_eq (a b : Encl) : enclSub a b = enclAdd a (enclNeg b) := by
  simp only [enclSub, enclAdd, enclNeg, sub_eq_add_neg]

theorem enclSub_near {a b : Encl} {x y e e' : ℝ} (ha : EnclNear a x e) (hb : EnclNear b y e') :
    EnclNear (enclSub a b) (x - y) (e + e') := by
  rw [enclSub_eq, sub_eq_add_neg]
  exact enclAdd_near ha (enclNeg_near hb)

theorem enclScale_near {a : Encl} {x e : ℝ} (h : EnclNear a x e) (n : ℕ) : EnclNear (enclScale a n) (x * n) (e * n) := by
  have scale (m : ℤ) : |((m * n : ℤ) : ℝ) - x * n * enclOne| = |(m : ℝ) - x * enclOne| * n := by
    have hfactor : ((m * n : ℤ) : ℝ) - x * n * enclOne = (m - x * enclOne) * n := by
      push_cast
      ring
    rw [hfactor, abs_mul, Nat.abs_cast]
  exact ⟨(scale _).trans_le (by gcongr; exact h.lo), (scale _).trans_le (by gcongr; exact h.hi)⟩

theorem enclDivNat_near {a : Encl} {x e : ℝ} (h : EnclNear a x e) {n : ℕ} (hn : 0 < n) :
    EnclNear (enclDivNat a n) (x / n) (e / n + 1) := by
  have hn' : (0 : ℝ) < n := by exact_mod_cast hn
  have quotient (m : ℤ) (hm : |(m : ℝ) - x * enclOne| ≤ e) : |(m : ℝ) / n - x / n * enclOne| ≤ e / n := by
    rw [div_mul_eq_mul_div, ← sub_div, abs_div, abs_of_pos hn']
    gcongr
  exact ⟨ediv_near (by exact_mod_cast hn) (quotient _ h.lo), ceilDiv_near hn (quotient _ h.hi)⟩

/-! ## Products -/

theorem abs_min_sub_le {a b c e : ℝ} (ha : |a - c| ≤ e) (hb : |b - c| ≤ e) : |min a b - c| ≤ e := by
  obtain h | h := min_choice a b <;> rwa [h]

theorem abs_max_sub_le {a b c e : ℝ} (ha : |a - c| ≤ e) (hb : |b - c| ≤ e) : |max a b - c| ≤ e := by
  obtain h | h := max_choice a b <;> rwa [h]

/-- A product of ends is near the product of the reals; `X` and `Y` bound the reals, and the product of the errors is at most
a unit. -/
theorem mul_ends_near {m n : ℤ} {x y e e' X Y : ℝ} (hm : |(m : ℝ) - x * enclOne| ≤ e) (hn : |(n : ℝ) - y * enclOne| ≤ e')
    (hx : |x| ≤ X) (hy : |y| ≤ Y) (hee : e * e' ≤ enclOne) :
    |((m * n : ℤ) : ℝ) - x * y * enclOne * enclOne| ≤ (X * e' + Y * e + 1) * enclOne := by
  have he : 0 ≤ e := (abs_nonneg _).trans hm
  have hX : 0 ≤ X := (abs_nonneg _).trans hx
  have hY : 0 ≤ Y := (abs_nonneg _).trans hy
  have hone := enclOne_pos
  set p := (m : ℝ) - x * enclOne with hp
  set q := (n : ℝ) - y * enclOne with hq
  calc |((m * n : ℤ) : ℝ) - x * y * enclOne * enclOne| = |x * q * enclOne + y * p * enclOne + p * q| := by
        congr 1
        rw [hp, hq]
        push_cast
        ring
    _ ≤ |x| * |q| * enclOne + |y| * |p| * enclOne + |p| * |q| := by
        refine (abs_add_three _ _ _).trans_eq ?_
        rw [abs_mul, abs_mul, abs_mul, abs_mul, abs_mul, abs_of_pos hone]
    _ ≤ X * e' * enclOne + Y * e * enclOne + e * e' := by gcongr
    _ ≤ (X * e' + Y * e + 1) * enclOne := by linarith

theorem enclMul_near {a b : Encl} {x y e e' X Y : ℝ} (ha : EnclNear a x e) (hb : EnclNear b y e') (hx : |x| ≤ X)
    (hy : |y| ≤ Y) (hee : e * e' ≤ enclOne) : EnclNear (enclMul a b) (x * y) (X * e' + Y * e + 2) := by
  have hone : 0 < enclOne := by exact_mod_cast enclOne_pos
  have hone' := enclOne_pos
  have ll := mul_ends_near ha.lo hb.lo hx hy hee
  have lh := mul_ends_near ha.lo hb.hi hx hy hee
  have hl := mul_ends_near ha.hi hb.lo hx hy hee
  have hh := mul_ends_near ha.hi hb.hi hx hy hee
  have quotient {p : ℝ} (hp : |p - x * y * enclOne * enclOne| ≤ (X * e' + Y * e + 1) * enclOne) :
      |p / enclOne - x * y * enclOne| ≤ X * e' + Y * e + 1 := by
    rwa [← div_le_iff₀ hone', ← abs_of_pos hone', ← abs_div, abs_of_pos hone', sub_div, mul_div_assoc,
      div_self hone'.ne', mul_one] at hp
  constructor
  · refine (ediv_near (by exact_mod_cast hone) (quotient ?_)).trans_eq (by ring)
    rw [Int.cast_min, Int.cast_min, Int.cast_min]
    exact abs_min_sub_le (abs_min_sub_le ll lh) (abs_min_sub_le hl hh)
  · refine (ceilDiv_near hone (quotient ?_)).trans_eq (by ring)
    rw [Int.cast_max, Int.cast_max, Int.cast_max]
    exact abs_max_sub_le (abs_max_sub_le ll lh) (abs_max_sub_le hl hh)

/-! ## Quotients -/

/-- A quotient of ends is near the quotient of the reals: the relative error of the divisor is at most one half. -/
theorem div_ends_near {m n : ℤ} {x y e e' : ℝ} (hm : |(m : ℝ) - x * enclOne| ≤ e) (hn : |(n : ℝ) - y * enclOne| ≤ e')
    (hy : 0 < y) (he' : e' ≤ y * enclOne / 2) :
    0 < n ∧ |(m : ℝ) / n - x / y| ≤ 2 * (e + |x / y| * e') / (y * enclOne) := by
  have hyU : 0 < y * enclOne := mul_pos hy enclOne_pos
  have hhalf : y * enclOne / 2 ≤ n := by linarith [neg_le_of_abs_le hn]
  have hnpos : (0 : ℝ) < n := by linarith
  have he : 0 ≤ e := (abs_nonneg _).trans hm
  have he0 : 0 ≤ e' := (abs_nonneg _).trans hn
  refine ⟨by exact_mod_cast hnpos, ?_⟩
  have hdiff : (m : ℝ) / n - x / y = ((m - x * enclOne) - x / y * (n - y * enclOne)) / n := by
    field_simp
    ring
  rw [hdiff, abs_div, abs_of_pos hnpos, div_le_div_iff₀ hnpos hyU]
  calc |(m - x * enclOne) - x / y * (n - y * enclOne)| * (y * enclOne)
      ≤ (e + |x / y| * e') * (y * enclOne) := by
        gcongr
        refine (abs_sub _ _).trans ?_
        rw [abs_mul]
        gcongr
    _ ≤ (e + |x / y| * e') * (2 * n) := mul_le_mul_of_nonneg_left (by linarith) (by positivity)
    _ = 2 * (e + |x / y| * e') * n := by ring

theorem enclDiv_near {a d : Encl} {x y e e' : ℝ} (ha : EnclNear a x e) (hd : EnclNear d y e') (hy : 0 < y)
    (he' : e' ≤ y * enclOne / 2) : EnclNear (enclDiv a d) (x / y) (2 * (e + |x / y| * e') / y + 1) := by
  have hone := enclOne_pos
  have quotient {m n : ℤ} (hm : |(m : ℝ) - x * enclOne| ≤ e) (hn : |(n : ℝ) - y * enclOne| ≤ e') :
      0 < n ∧ |((m * enclOne : ℤ) : ℝ) / n - x / y * enclOne| ≤ 2 * (e + |x / y| * e') / y := by
    obtain ⟨hpos, hnear⟩ := div_ends_near hm hn hy he'
    refine ⟨hpos, ?_⟩
    rw [Int.cast_mul, Int.cast_natCast, mul_div_right_comm, ← sub_mul, abs_mul, abs_of_pos hone]
    calc |(m : ℝ) / n - x / y| * enclOne ≤ 2 * (e + |x / y| * e') / (y * enclOne) * enclOne := by gcongr
      _ = 2 * (e + |x / y| * e') / y := by field_simp
  constructor
  · obtain ⟨hpos, hnear⟩ := quotient ha.lo (hd.ite_hi_lo (0 ≤ a.lo))
    exact ediv_near hpos hnear
  · obtain ⟨hpos, hnear⟩ := quotient ha.hi (hd.ite_lo_hi (0 ≤ a.hi))
    refine ceilDiv_near (by omega) ?_
    have hcast : (((if 0 ≤ a.hi then d.lo else d.hi : ℤ).toNat : ℕ) : ℝ) = (if 0 ≤ a.hi then d.lo else d.hi : ℤ) := by
      exact_mod_cast Int.toNat_of_nonneg hpos.le
    rwa [hcast]

end Sys2Proof.Proofs
end

section
/-!
PROOF. The enclosures of the sine and the cosine (R120): 28 terms of the series for an angle of at most π/4, and the reduction
of a turn to an eighth.
-/

namespace Sys2Proof.Proofs

open Sys2Proof.Machine Sys2Proof.Claims

/-! ## The series (R120) -/

/-- The terms of an alternating series and what `alternating` needs of them: each is the one before times `z / d n`, all lie
between 0 and 1, and `z` is enclosed to within 8 units. -/
structure SeriesTerms (d : ℕ → ℕ) (Z : Encl) (z : ℝ) (f : ℕ → ℝ) : Prop where
  step : ∀ n, f (n + 1) = f n * z / d n
  divisor : ∀ n, 2 ≤ d n
  start : f 0 = 1
  ratio_nonneg : 0 ≤ z
  ratio_le : z ≤ 1
  near : EnclNear Z z 8

theorem SeriesTerms.nonneg {d : ℕ → ℕ} {Z : Encl} {z : ℝ} {f : ℕ → ℝ} (h : SeriesTerms d Z z f) (n : ℕ) : 0 ≤ f n := by
  induction n with
  | zero => exact h.start.symm ▸ zero_le_one
  | succ n ih =>
    rw [h.step]
    exact div_nonneg (mul_nonneg ih h.ratio_nonneg) (Nat.cast_nonneg _)

theorem SeriesTerms.antitone {d : ℕ → ℕ} {Z : Encl} {z : ℝ} {f : ℕ → ℝ} (h : SeriesTerms d Z z f) : Antitone f := by
  refine antitone_nat_of_succ_le fun n => ?_
  have hd : (1 : ℝ) ≤ d n := by exact_mod_cast one_le_two.trans (h.divisor n)
  rw [h.step]
  exact (div_le_self (mul_nonneg (h.nonneg n) h.ratio_nonneg) hd).trans (mul_le_of_le_one_right (h.nonneg n) h.ratio_le)

theorem SeriesTerms.le_one {d : ℕ → ℕ} {Z : Encl} {z : ℝ} {f : ℕ → ℝ} (h : SeriesTerms d Z z f) (n : ℕ) : f n ≤ 1 :=
  h.start ▸ h.antitone (Nat.zero_le n)

/-- The computed sum of the first terms: every term is within 12 units, and the series is closed by its next term. -/
theorem alternating_near {d : ℕ → ℕ} {Z : Encl} {z : ℝ} {f : ℕ → ℝ} (h : SeriesTerms d Z z f) {fuel n : ℕ} {T : Encl}
    (hT : EnclNear T (f n) 12) :
    EnclNear (alternating d Z fuel n T) (∑ i ∈ Finset.range fuel, (-1) ^ i * f (n + i))
      (12 * (fuel + 1) + f (n + fuel) * enclOne) := by
  have hone := enclOne_pos
  induction fuel generalizing n T with
  | zero =>
    have hlast : |(T.hi : ℝ)| ≤ 12 + f n * enclOne := by
      have h0 := abs_sub_abs_le_abs_sub (T.hi : ℝ) (f n * enclOne)
      rw [abs_of_nonneg (mul_nonneg (h.nonneg n) hone.le)] at h0
      linarith [hT.hi]
    rw [alternating, Finset.sum_range_zero]
    constructor
    · simpa using (abs_nonneg _).trans hlast
    · simpa using hlast
  | succ fuel ih =>
    have hsum : ∑ i ∈ Finset.range (fuel + 1), (-1) ^ i * f (n + i) =
        f n - ∑ i ∈ Finset.range fuel, (-1) ^ i * f (n + 1 + i) := by
      rw [Finset.sum_range_succ', pow_zero, one_mul, Nat.add_zero, add_comm, sub_eq_add_neg, ← Finset.sum_neg_distrib]
      congr 1
      refine Finset.sum_congr rfl fun i _ => ?_
      rw [pow_succ, show n + (i + 1) = n + 1 + i by omega]
      ring
    have hnext : EnclNear (enclDivNat (enclMul T Z) (d n)) (f (n + 1)) 12 := by
      have hfn : |f n| ≤ 1 := by rw [abs_of_nonneg (h.nonneg n)]; exact h.le_one n
      have hz : |z| ≤ 1 := by rw [abs_of_nonneg h.ratio_nonneg]; exact h.ratio_le
      have hd : (2 : ℝ) ≤ d n := by exact_mod_cast h.divisor n
      have hmul := enclMul_near hT h.near hfn hz (by rw [enclOne_eq]; norm_num)
      rw [h.step]
      refine (enclDivNat_near hmul (two_pos.trans_le (h.divisor n))).mono ?_
      have hhalf : (1 * 8 + 1 * 12 + 2) / (d n : ℝ) ≤ 22 / 2 := by gcongr; norm_num
      linarith
    rw [hsum, alternating]
    refine (enclSub_near hT (ih hnext)).mono (le_of_eq ?_)
    rw [show n + 1 + fuel = n + (fuel + 1) by omega]
    push_cast
    ring

/-- The enclosure of the whole series: the tail that is cut off is at most its first term. -/
theorem series_near {d : ℕ → ℕ} {Z : Encl} {z l : ℝ} {f : ℕ → ℝ} (h : SeriesTerms d Z z f)
    (hsum : HasSum (fun n => (-1) ^ n * f n) l) (htail : f 28 * enclOne ≤ 256) :
    EnclNear (alternating d Z seriesTerms 0 (enclOfInt 1)) l 1024 := by
  have hone := enclOne_pos
  have hstart : EnclNear (enclOfInt 1) (f 0) 12 := by
    rw [h.start]
    exact_mod_cast (enclOfInt_near 1).mono (by norm_num)
  have hpartial := alternating_near h (fuel := seriesTerms) hstart
  obtain ⟨hlow, hhigh⟩ := alternating_sum_bounds hsum h.antitone 14
  simp only [Nat.zero_add, seriesTerms] at hpartial
  set partialSum := ∑ i ∈ Finset.range 28, (-1) ^ i * f i with hp
  have hcut : |partialSum * enclOne - l * enclOne| ≤ 256 := by
    rw [← sub_mul, abs_mul, abs_of_pos hone, abs_of_nonpos (sub_nonpos.2 hlow)]
    refine le_trans ?_ htail
    gcongr
    linarith
  have hends {m : ℤ} (hm : |(m : ℝ) - partialSum * enclOne| ≤ 12 * ((28 : ℕ) + 1) + f 28 * enclOne) :
      |(m : ℝ) - l * enclOne| ≤ 1024 := by
    refine (abs_sub_le _ (partialSum * enclOne) _).trans ?_
    norm_num at hm
    linarith
  exact ⟨hends hpartial.lo, hends hpartial.hi⟩

/-! ## The sine and the cosine of an eighth of a turn -/

/-- The enclosure of an angle between 0 and π/4. -/
structure SmallAngle (Θ : Encl) (θ : ℝ) : Prop where
  near : EnclNear Θ θ 2
  nonneg : 0 ≤ θ
  le : θ ≤ Real.pi / 4

theorem SmallAngle.le_one {Θ : Encl} {θ : ℝ} (h : SmallAngle Θ θ) : θ ≤ 1 := by
  linarith [h.le, Real.pi_le_four]

theorem SmallAngle.abs_le_one {Θ : Encl} {θ : ℝ} (h : SmallAngle Θ θ) : |θ| ≤ 1 := by
  rw [abs_of_nonneg h.nonneg]
  exact h.le_one

theorem SmallAngle.square_near {Θ : Encl} {θ : ℝ} (h : SmallAngle Θ θ) : EnclNear (enclMul Θ Θ) (θ ^ 2) 8 := by
  rw [sq]
  exact (enclMul_near h.near h.near h.abs_le_one h.abs_le_one (by rw [enclOne_eq]; norm_num)).mono (by norm_num)

/-- Term `n` of the cosine series (`k = 0`) and of the series of `sin θ / θ` (`k = 1`), without its sign. -/
noncomputable def trigTerm (k : ℕ) (θ : ℝ) (n : ℕ) : ℝ := θ ^ (2 * n) / (2 * n + k).factorial

theorem trigTerms_of_smallAngle {Θ : Encl} {θ : ℝ} (h : SmallAngle Θ θ) {k : ℕ} (hk : k ≤ 1) :
    SeriesTerms (fun n => (2 * n + k + 1) * (2 * n + k + 2)) (enclMul Θ Θ) (θ ^ 2) (trigTerm k θ) where
  step n := by
    unfold trigTerm
    rw [show 2 * (n + 1) + k = 2 * n + k + 1 + 1 by omega, Nat.factorial_succ, Nat.factorial_succ, pow_mul, pow_mul, pow_succ]
    push_cast
    field_simp
    ring
  divisor n := by nlinarith
  start := by
    unfold trigTerm
    interval_cases k <;> simp
  ratio_nonneg := sq_nonneg θ
  ratio_le := pow_le_one₀ h.nonneg h.le_one
  near := h.square_near

theorem trigTerm_tail {Θ : Encl} {θ : ℝ} (h : SmallAngle Θ θ) (k : ℕ) : trigTerm k θ 28 * enclOne ≤ 256 := by
  have hpow : θ ^ (2 * 28) ≤ 1 := pow_le_one₀ h.nonneg h.le_one
  have hnat : 2 ^ 256 ≤ 256 * (2 * 28 + k).factorial :=
    (show 2 ^ 256 ≤ 256 * Nat.factorial 56 by decide +kernel).trans
      (Nat.mul_le_mul_left 256 (Nat.factorial_le (Nat.le_add_right 56 k)))
  have hfact : (2 : ℝ) ^ 256 ≤ 256 * (2 * 28 + k).factorial := by exact_mod_cast hnat
  rw [enclOne_eq, trigTerm, div_mul_eq_mul_div, div_le_iff₀ (by positivity)]
  exact (mul_le_of_le_one_left (by positivity) hpow).trans hfact

theorem cosSmall_near {Θ : Encl} {θ : ℝ} (h : SmallAngle Θ θ) : EnclNear (cosSmall Θ) (Real.cos θ) 1024 := by
  refine series_near (trigTerms_of_smallAngle h (Nat.zero_le 1)) ?_ (trigTerm_tail h 0)
  convert Real.hasSum_cos θ using 2 with n
  rw [trigTerm, mul_div_assoc, Nat.add_zero]

theorem sincSmall_near {Θ : Encl} {θ : ℝ} (h : SmallAngle Θ θ) : EnclNear (sincSmall Θ) (Real.sinc θ) 1024 := by
  refine series_near (trigTerms_of_smallAngle h le_rfl) ?_ (trigTerm_tail h 1)
  obtain rfl | hne := eq_or_ne θ 0
  · rw [Real.sinc_zero]
    have hsingle := hasSum_single (f := fun n => (-1) ^ n * trigTerm 1 0 n) 0 fun n hn => by simp [trigTerm, hn]
    simpa [trigTerm] using hsingle
  · have hterm (n : ℕ) :
        (-1) ^ n * trigTerm 1 θ n = (-1) ^ n * θ ^ (2 * n + 1) / (2 * n + 1).factorial / θ := by
      unfold trigTerm
      rw [pow_succ]
      field_simp
    rw [Real.sinc_of_ne_zero hne]
    simpa only [hterm] using (Real.hasSum_sin θ).div_const θ

theorem sinSmall_near {Θ : Encl} {θ : ℝ} (h : SmallAngle Θ θ) : EnclNear (sinSmall Θ) (Real.sin θ) 2048 := by
  have hsin : Real.sin θ = θ * Real.sinc θ := by
    obtain rfl | hne := eq_or_ne θ 0
    · simp
    · rw [Real.sinc_of_ne_zero hne, mul_div_cancel₀ _ hne]
  rw [hsin]
  exact (enclMul_near h.near (sincSmall_near h) h.abs_le_one (Real.abs_sinc_le_one θ)
    (by rw [enclOne_eq]; norm_num)).mono (by norm_num)

/-! ## A turn (R120) -/

theorem turnAngle_near (a : ℕ) {b : ℕ} (hb : 0 < b) :
    EnclNear (turnAngle a b) (2 * Real.pi * a / b) (2 * a / b + 1) := by
  have hb' : (0 : ℝ) < b := by exact_mod_cast hb
  have hlo := enclPi_lo_le
  have hhi := le_enclPi_hi
  have hsucc : (enclPi.hi : ℝ) = enclPi.lo + 1 := by exact_mod_cast congrArg (Int.cast (R := ℝ)) enclPi_hi
  have hends {m : ℤ} (hm : |(m : ℝ) - Real.pi * enclOne| ≤ 1) :
      |((2 * m * a : ℤ) : ℝ) / (b : ℕ) - 2 * Real.pi * a / b * enclOne| ≤ 2 * a / b := by
    have hfactor : ((2 * m * a : ℤ) : ℝ) / (b : ℕ) - 2 * Real.pi * a / b * enclOne =
        (m - Real.pi * enclOne) * (2 * a / b) := by
      push_cast
      ring
    rw [hfactor, abs_mul, abs_of_nonneg (show (0 : ℝ) ≤ 2 * a / b by positivity)]
    exact mul_le_of_le_one_left (by positivity) hm
  constructor
  · exact ediv_near (by exact_mod_cast hb) (hends (abs_le.2 ⟨by linarith, by linarith⟩))
  · exact ceilDiv_near hb (hends (abs_le.2 ⟨by linarith, by linarith⟩))

/-- The angle of `n / b` of a half turn. -/
theorem turnAngle_half_near (n : ℕ) {b : ℕ} (hb : 0 < b) : EnclNear (turnAngle n (2 * b)) (Real.pi * n / b) (n / b + 1) := by
  have hturn := turnAngle_near n (b := 2 * b) (by omega)
  rwa [Nat.cast_mul, Nat.cast_ofNat, mul_assoc, mul_div_mul_left _ _ two_ne_zero, mul_div_mul_left _ _ two_ne_zero] at hturn

/-- A part `r / b` of an eighth of a turn is a small angle. -/
theorem turnAngle_small {r b : ℕ} (hb : 0 < b) (hr : r ≤ b) :
    SmallAngle (turnAngle r (8 * b)) (r / b * (Real.pi / 4)) := by
  have hb' : (0 : ℝ) < b := by exact_mod_cast hb
  have hpart : (r : ℝ) / b ≤ 1 := (div_le_one hb').2 (by exact_mod_cast hr)
  have hangle : 2 * Real.pi * r / (8 * b : ℕ) = r / b * (Real.pi / 4) := by
    push_cast
    ring
  have hpi := Real.pi_pos
  refine ⟨?_, by positivity, mul_le_of_le_one_left (by positivity) hpart⟩
  rw [← hangle]
  refine (turnAngle_near r (by omega)).mono ?_
  have herror : 2 * (r : ℝ) / (8 * b : ℕ) = r / b / 4 := by
    push_cast
    ring
  rw [herror]
  linarith

/-- An angle of `h / b` of a turn is a whole number of eighths of a turn and a part of one. -/
theorem turn_eq_eighths (h : ℕ) {b : ℕ} (hb : 0 < b) :
    2 * Real.pi * h / b = (8 * h / b : ℕ) * (Real.pi / 4) + (8 * h % b : ℕ) / b * (Real.pi / 4) := by
  have hb' : (b : ℝ) ≠ 0 := by exact_mod_cast hb.ne'
  have hdiv : (b : ℝ) * (8 * h / b : ℕ) + (8 * h % b : ℕ) = 8 * h := by exact_mod_cast Nat.div_add_mod (8 * h) b
  have hh : (h : ℝ) = (b * (8 * h / b : ℕ) + (8 * h % b : ℕ)) / 8 := by linarith
  rw [hh]
  generalize ((8 * h / b : ℕ) : ℝ) = q
  generalize ((8 * h % b : ℕ) : ℝ) = r
  field_simp
  ring

/-- The turn that `cosTurn` takes in place of `a / b`, from 0 to one half, has the same cosine (R120). -/
theorem cos_turn_eq (a : ℤ) {b : ℕ} (hb : 0 < b) :
    Real.cos (2 * Real.pi * a / b) =
      Real.cos (2 * Real.pi * (min (a % b).toNat (b - (a % b).toNat) : ℕ) / b) := by
  have hb' : (b : ℝ) ≠ 0 := by exact_mod_cast hb.ne'
  have hmod : ((a % b).toNat : ℤ) = a % b := Int.toNat_of_nonneg (Int.emod_nonneg a (by omega))
  have hlt : (a % b).toNat < b := by
    have := Int.emod_lt_of_pos a (show (0 : ℤ) < b by omega)
    omega
  have ha : (a : ℝ) = (a % b).toNat + b * (a / b : ℤ) := by
    have h := Int.emod_add_mul_ediv a b
    rw [← hmod] at h
    exact_mod_cast h.symm
  have hperiod : 2 * Real.pi * a / b = 2 * Real.pi * (a % b).toNat / b + (a / b : ℤ) * (2 * Real.pi) := by
    rw [ha]
    generalize ((a / b : ℤ) : ℝ) = q
    generalize (((a % b).toNat : ℕ) : ℝ) = m
    field_simp
  rw [hperiod, Real.cos_add_int_mul_two_pi]
  obtain hle | hge := le_total (a % b).toNat (b - (a % b).toNat)
  · rw [min_eq_left hle]
  · rw [min_eq_right hge, Nat.cast_sub hlt.le, ← Real.cos_two_pi_sub]
    congr 1
    field_simp

theorem cos_one_eighth_add (x : ℝ) : Real.cos ((1 : ℕ) * (Real.pi / 4) + x) = Real.sin (Real.pi / 4 - x) := by
  rw [← Real.cos_pi_div_two_sub]
  congr 1
  push_cast
  ring

theorem cos_two_eighths_add (x : ℝ) : Real.cos ((2 : ℕ) * (Real.pi / 4) + x) = -Real.sin x := by
  rw [← Real.cos_add_pi_div_two]
  congr 1
  push_cast
  ring

theorem cos_three_eighths_add (x : ℝ) : Real.cos ((3 : ℕ) * (Real.pi / 4) + x) = -Real.cos (Real.pi / 4 - x) := by
  rw [← Real.cos_pi_sub]
  congr 1
  push_cast
  ring

theorem cos_four_eighths : Real.cos ((4 : ℕ) * (Real.pi / 4)) = -1 := by
  rw [← Real.cos_pi]
  congr 1
  push_cast
  ring

/-- The enclosure of a cosine of any turn: the eighth it lies in decides which series is taken, and from which side. -/
theorem cosTurn_near (a : ℤ) {b : ℕ} (hb : 0 < b) : EnclNear (cosTurn a b) (Real.cos (2 * Real.pi * a / b)) 2048 := by
  have hb' : (b : ℝ) ≠ 0 := by exact_mod_cast hb.ne'
  have exact_near (n : ℤ) : EnclNear (enclOfInt n) n 2048 := (enclOfInt_near n).mono (by norm_num)
  rw [cos_turn_eq a hb, cosTurn]
  have hhalf : min (a % b).toNat (b - (a % b).toNat) ≤ b / 2 := by omega
  generalize min (a % b).toNat (b - (a % b).toNat) = h at hhalf ⊢
  have hr := Nat.mod_lt (8 * h) hb
  have hoct : 8 * h / b ≤ 4 := Nat.div_le_of_le_mul (by omega)
  have hfull : 8 * h / b = 4 → 8 * h % b = 0 := by
    intro h4
    have hdiv := Nat.div_add_mod (8 * h) b
    rw [h4] at hdiv
    omega
  have hθ := turnAngle_small hb hr.le
  have hθ' := turnAngle_small hb (Nat.sub_le b (8 * h % b))
  rw [Nat.cast_sub hr.le, sub_div, div_self hb', sub_mul, one_mul] at hθ'
  rw [turn_eq_eighths h hb]
  generalize 8 * h % b = r at *
  split
  next hoct0 =>
    rw [hoct0, Nat.cast_zero, zero_mul, zero_add]
    split
    next hr0 => simpa [hr0] using exact_near 1
    next => exact (cosSmall_near hθ).mono (by norm_num)
  next hoct1 =>
    rw [hoct1, cos_one_eighth_add]
    exact sinSmall_near hθ'
  next hoct2 =>
    rw [hoct2, cos_two_eighths_add]
    split
    next hr0 => simpa [hr0] using exact_near 0
    next => exact enclNeg_near (sinSmall_near hθ)
  next hoct3 =>
    rw [hoct3, cos_three_eighths_add]
    exact (enclNeg_near (cosSmall_near hθ')).mono (by norm_num)
  next hne0 hne1 hne2 hne3 =>
    rw [imp_false] at hne0 hne1 hne2 hne3
    have hoct4 : 8 * h / b = 4 := by
      generalize 8 * h / b = oct at *
      omega
    rw [hoct4, hfull hoct4, Nat.cast_zero, zero_div, zero_mul, add_zero, cos_four_eighths]
    simpa using exact_near (-1)

theorem sinTurn_near (a : ℤ) {b : ℕ} (hb : 0 < b) : EnclNear (sinTurn a b) (Real.sin (2 * Real.pi * a / b)) 2048 := by
  have hb' : (b : ℝ) ≠ 0 := by exact_mod_cast hb.ne'
  have hquarter : Real.sin (2 * Real.pi * a / b) = Real.cos (2 * Real.pi * (4 * a - b : ℤ) / (4 * b : ℕ)) := by
    rw [← Real.cos_sub_pi_div_two]
    congr 1
    push_cast
    field_simp
    ring
  rw [hquarter]
  exact cosTurn_near _ (by omega)

end Sys2Proof.Proofs
end

section
/-!
PROOF. The designed bank against the windowed-sinc prototype (R143 to R145): the enclosures of the prototype's values and of a
phase's gain, and the rounding of their quotient (log 10).
-/

namespace Sys2Proof.Proofs

open Sys2Proof.Machine Sys2Proof.Claims

/-! ## The values of the prototype (R143) -/

/-- Past an eighth of a turn the quotient of the sine by the angle is enclosed: the angle is not small beside its error. -/
theorem sincQuotient_near {n b : ℕ} (hb : 0 < b) (hn : b ≤ 4 * n) :
    EnclNear (enclDiv (sinTurn n (2 * b)) (turnAngle n (2 * b))) (Real.sinc (Real.pi * n / b)) 8192 := by
  have hb' : (0 : ℝ) < b := by exact_mod_cast hb
  have hsin := sinTurn_near n (b := 2 * b) (by omega)
  rw [Int.cast_natCast, Nat.cast_mul, Nat.cast_ofNat, mul_assoc, mul_div_mul_left _ _ two_ne_zero] at hsin
  have hturn := turnAngle_half_near n hb
  set q : ℝ := n / b with hq
  have hy : Real.pi * n / b = Real.pi * q := mul_div_assoc _ _ _
  rw [hy] at hsin hturn ⊢
  have hquarter : 1 / 4 ≤ q := by
    rw [hq, le_div_iff₀ hb']
    have : (b : ℝ) ≤ 4 * n := by exact_mod_cast hn
    linarith
  have hpi := Real.pi_gt_three
  have hpos : 0 < Real.pi * q := by positivity
  have hlow : 3 / 4 ≤ Real.pi * q := by nlinarith
  have hwidth : q + 1 ≤ 2 * (Real.pi * q) := by nlinarith
  rw [Real.sinc_of_ne_zero hpos.ne']
  have hone : (4 : ℝ) ≤ enclOne := by rw [enclOne_eq]; norm_num
  refine (enclDiv_near hsin hturn hpos (by nlinarith)).mono ?_
  have hshare : |Real.sin (Real.pi * q) / (Real.pi * q)| * (q + 1) ≤ 2 := by
    rw [abs_div, abs_of_pos hpos, div_mul_eq_mul_div, div_le_iff₀ hpos]
    exact (mul_le_of_le_one_left (by positivity) (Real.abs_sin_le_one _)).trans hwidth
  have hquot : 2 * (2048 + |Real.sin (Real.pi * q) / (Real.pi * q)| * (q + 1)) / (Real.pi * q) ≤ 2 * (2048 + 2) / (3 / 4) := by
    gcongr
  norm_num at hquot ⊢
  linarith

theorem turnAngle_small_of_le {n b : ℕ} (hb : 0 < b) (hn : 4 * n ≤ b) :
    SmallAngle (turnAngle n (2 * b)) (Real.pi * n / b) := by
  have hb' : (0 : ℝ) < b := by exact_mod_cast hb
  have hquarter : (n : ℝ) / b ≤ 1 / 4 := by
    rw [div_le_div_iff₀ hb' four_pos]
    have : 4 * (n : ℝ) ≤ b := by exact_mod_cast hn
    linarith
  refine ⟨(turnAngle_half_near n hb).mono (by linarith), by positivity, ?_⟩
  rw [mul_div_assoc, div_eq_mul_one_div Real.pi 4]
  gcongr

theorem sincPi_near (a : ℤ) {b : ℕ} (hb : 0 < b) : EnclNear (sincPi a b) (Real.sinc (Real.pi * a / b)) 8192 := by
  have hb' : (b : ℝ) ≠ 0 := by exact_mod_cast hb.ne'
  have heven : Real.sinc (Real.pi * a / b) = Real.sinc (Real.pi * a.natAbs / b) := by
    obtain ⟨n, rfl | rfl⟩ := a.eq_nat_or_neg
    · rw [Int.natAbs_natCast, Int.cast_natCast]
    · rw [Int.natAbs_neg, Int.natAbs_natCast, Int.cast_neg, Int.cast_natCast, mul_neg, neg_div, Real.sinc_neg]
  rw [heven, sincPi]
  generalize a.natAbs = n
  split_ifs with hzero hwhole hsmall
  · rw [hzero, Nat.cast_zero, mul_zero, zero_div, Real.sinc_zero]
    simpa using (enclOfInt_near 1).mono (by norm_num : (0 : ℝ) ≤ 8192)
  · obtain ⟨k, rfl⟩ := Nat.dvd_of_mod_eq_zero hwhole
    have hk : (k : ℝ) ≠ 0 := by exact_mod_cast (Nat.mul_ne_zero_iff.1 hzero).2
    have hangle : Real.pi * (b * k : ℕ) / b = k * Real.pi := by
      push_cast
      field_simp
    rw [hangle, Real.sinc_of_ne_zero (mul_ne_zero hk Real.pi_ne_zero), Real.sin_nat_mul_pi, zero_div]
    simpa using (enclOfInt_near 0).mono (by norm_num : (0 : ℝ) ≤ 8192)
  · exact (sincSmall_near (turnAngle_small_of_le hb hsmall)).mono (by norm_num)
  · exact sincQuotient_near hb (by omega)

/-- The Hamming window of R143. -/
noncomputable def windowOf (len k : ℕ) : ℝ :=
  if len = 1 then 1 else 0.54 - 0.46 * Real.cos (2 * Real.pi * k / (len - 1))

theorem windowHundred_near {k len : ℕ} (hlen : 1 ≤ len) : EnclNear (windowHundred k len) (100 * windowOf len k) 131072 := by
  unfold windowHundred windowOf
  split_ifs with hone
  · rw [mul_one]
    exact_mod_cast (enclOfInt_near 100).mono (by norm_num)
  · have hcos := cosTurn_near k (b := len - 1) (by omega)
    rw [Int.cast_natCast, Nat.cast_sub hlen, Nat.cast_one] at hcos
    have hvalue : (100 : ℝ) * (0.54 - 0.46 * Real.cos (2 * Real.pi * k / (len - 1))) =
        (54 : ℤ) - Real.cos (2 * Real.pi * k / (len - 1)) * (46 : ℕ) := by
      push_cast
      ring
    rw [hvalue]
    exact (enclSub_near (enclOfInt_near 54) (enclScale_near hcos 46)).mono (by norm_num)

theorem abs_windowOf_le (len k : ℕ) : |100 * windowOf len k| ≤ 100 := by
  unfold windowOf
  split_ifs
  · norm_num
  · have hle := Real.cos_le_one (2 * Real.pi * k / (len - 1))
    have hge := Real.neg_one_le_cos (2 * Real.pi * k / (len - 1))
    rw [abs_le]
    constructor <;> linarith

/-- A hundred times the prototype's value `k` over `wc / π`: what the machine encloses (log 12). -/
noncomputable def tapOf (n len fc fs k : ℕ) : ℝ :=
  100 * windowOf len k * Real.sinc (Real.pi * (fc * (2 * k - (len - 1))) / (n * fs))

theorem prototypeTap_near {n len fc fs : ℕ} (k : ℕ) (hn : 0 < n) (hlen : 1 ≤ len) (hfs : 0 < fs) :
    EnclNear (prototypeTap n len fc fs k) (tapOf n len fc fs k) (2 ^ 20) := by
  have hsinc := sincPi_near (fc * (2 * (k : ℤ) - (len - 1 : ℕ))) (Nat.mul_pos hn hfs)
  have hangle : Real.pi * ((fc * (2 * (k : ℤ) - (len - 1 : ℕ)) : ℤ) : ℝ) / (n * fs : ℕ) =
      Real.pi * (fc * (2 * k - (len - 1))) / (n * fs) := by
    push_cast [Nat.cast_sub hlen]
    rfl
  rw [hangle] at hsinc
  exact (enclMul_near (windowHundred_near hlen) hsinc (abs_windowOf_le len k) (Real.abs_sinc_le_one _)
    (by rw [enclOne_eq]; norm_num)).mono (by norm_num)

/-- The prototype of R143 is the scaled one times `wc / (100 π)`. -/
theorem prototypeOf_eq {n t fc fs : ℕ} (k : ℕ) (hn : 0 < n) (hfs : 0 < fs) (hfc : 0 < fc) :
    prototypeOf n t fs fc k = 2 * fc / (n * fs) / 100 * tapOf n (n * t) fc fs k := by
  have hn' : (n : ℝ) ≠ 0 := by exact_mod_cast hn.ne'
  have hfs' : (fs : ℝ) ≠ 0 := by exact_mod_cast hfs.ne'
  have hfc' : (fc : ℝ) ≠ 0 := by exact_mod_cast hfc.ne'
  have hpi := Real.pi_ne_zero
  unfold prototypeOf tapOf
  dsimp only
  rw [← windowOf]
  set m : ℝ := k - ((n * t : ℕ) - 1) / 2 with hm
  have hangle : Real.pi * (fc * (2 * k - ((n * t : ℕ) - 1))) / (n * fs) = 2 * Real.pi * fc / (n * fs) * m := by
    rw [hm]
    ring
  rw [hangle]
  split_ifs with hzero
  · rw [hzero, mul_zero, Real.sinc_zero]
    field_simp
  · rw [Real.sinc_of_ne_zero (by positivity)]
    field_simp

/-- The prototype depends on the cut-off and the rate by their quotient only. -/
theorem prototypeOf_scale {c : ℝ} (hc : c ≠ 0) (n t : ℕ) (fs fc : ℝ) (k : ℕ) :
    prototypeOf n t (c * fs) (c * fc) k = prototypeOf n t fs fc k := by
  have hwc : 2 * Real.pi * (c * fc) / (n * (c * fs)) = 2 * Real.pi * fc / (n * fs) := by
    rw [show 2 * Real.pi * (c * fc) = c * (2 * Real.pi * fc) by ring, show (n : ℝ) * (c * fs) = c * (n * fs) by ring,
      mul_div_mul_left _ _ hc]
  unfold prototypeOf
  rw [hwc]

/-! ## The gain of a phase (R144) -/

theorem enclSum_near {f : ℕ → Encl} {g : ℕ → ℝ} {e : ℝ} (h : ∀ i, EnclNear (f i) (g i) e) (l : List ℕ) :
    EnclNear (enclSum (l.map f)) (l.map g).sum (l.length * e) := by
  induction l with
  | nil => simpa [enclSum] using enclOfInt_near 0
  | cons i l ih =>
    rw [List.map_cons, List.map_cons, enclSum, List.sum_cons, List.length_cons, Nat.cast_succ, add_mul, one_mul, add_comm _ e]
    exact enclAdd_near (h i) ih

/-- The sum of the scaled prototype's values in phase `p`. -/
noncomputable def gainOf (n t fc fs p : ℕ) : ℝ := ∑ i ∈ Finset.range t, tapOf n (n * t) fc fs (i * n + p)

theorem enclSum_prototypeRow_near {n t fc fs : ℕ} (p : ℕ) (hn : 0 < n) (ht : 0 < t) (hle : t ≤ 1024) (hfs : 0 < fs) :
    EnclNear (enclSum (prototypeRow n t fc fs p)) (gainOf n t fc fs p) (2 ^ 30) := by
  have hsum := enclSum_near (fun i => prototypeTap_near (fc := fc) (i * n + p) hn (Nat.mul_pos hn ht) hfs) (List.range t)
  have hle' : (t : ℝ) ≤ 1024 := by exact_mod_cast hle
  rw [List.length_range] at hsum
  exact hsum.mono (by norm_num; linarith)

theorem phaseGain_eq {n t fc fs : ℕ} (p : ℕ) (hn : 0 < n) (hfs : 0 < fs) (hfc : 0 < fc) :
    phaseGain n t fs fc p = 2 * fc / (n * fs) / 100 * gainOf n t fc fs p := by
  unfold phaseGain gainOf
  rw [Finset.mul_sum]
  exact Finset.sum_congr rfl fun i _ => prototypeOf_eq _ hn hfs hfc

/-! ## The rounding of a tap (R145) -/

/-- A finite rounding of a quotient, in values (R112). -/
theorem rndF_error (m : ℤ) {d : ℕ} (hd : 0 < d) (hfin : fIsFinite (rndF m d) = true) :
    |((valF (rndF m d) : ℚ) : ℝ) - m / d| ≤ |(m : ℝ) / d| / 2 ^ 24 + 1 / 2 ^ 150 := by
  have hd' : (0 : ℝ) < d := by exact_mod_cast hd
  have herror := rndUnits_error (m * 2 ^ 149) hd hfin
  rw [← rndF] at herror
  have hval : ((valF (rndF m d) : ℚ) : ℝ) = fScaled (rndF m d) / 2 ^ 149 := by
    rw [valF_eq_fScaled]
    push_cast
    rfl
  rw [hval]
  generalize fScaled (rndF m d) = v at herror
  have hdiff : (v : ℝ) / 2 ^ 149 - m / d = -(m * 2 ^ 149 - v * d) / (2 ^ 149 * d) := by
    field_simp
    ring
  have hbound : |(m : ℝ) / d| / 2 ^ 24 + 1 / 2 ^ 150 = (|(m : ℝ)| * 2 ^ 149 + 2 ^ 23 * d) / 2 ^ 24 / (2 ^ 149 * d) := by
    rw [abs_div, abs_of_pos hd']
    field_simp
  have herror' : (2 : ℝ) ^ 24 * |(m : ℝ) * 2 ^ 149 - v * d| ≤ |(m : ℝ)| * 2 ^ 149 + 2 ^ 23 * d := by
    have hmax : (2 : ℤ) ^ 24 * |m * 2 ^ 149 - v * d| ≤ |m| * 2 ^ 149 + 2 ^ 23 * d := by
      refine herror.trans (max_le ?_ (le_add_of_nonneg_left (by positivity)))
      rw [abs_mul, abs_of_pos (show (0 : ℤ) < 2 ^ 149 by positivity)]
      exact le_add_of_nonneg_right (by positivity)
    have hcast : (((2 : ℤ) ^ 24 * |m * 2 ^ 149 - v * d| : ℤ) : ℝ) ≤ (|m| * 2 ^ 149 + 2 ^ 23 * d : ℤ) := Int.cast_le.2 hmax
    simpa only [Int.cast_mul, Int.cast_abs, Int.cast_sub, Int.cast_add, Int.cast_pow, Int.cast_ofNat,
      Int.cast_natCast] using hcast
  rw [hdiff, hbound, abs_div, abs_neg, abs_of_pos (show (0 : ℝ) < 2 ^ 149 * d by positivity)]
  gcongr
  rw [le_div_iff₀' (by positivity)]
  exact herror'

/-- A rounded quotient of an enclosed real by an enclosed positive one is near the real quotient. -/
theorem rndQuotient_near {g d : Encl} {x y e e' : ℝ} (hg : EnclNear g x e) (hd : EnclNear d y e') (hy : 0 < y)
    (he' : e' ≤ y * enclOne / 2) (hfin : fIsFinite (rndQuotient g d) = true) :
    |((valF (rndQuotient g d) : ℚ) : ℝ) - x / y| ≤
      |x / y| / 2 ^ 24 + 2 * (2 * (e + |x / y| * e') / (y * enclOne)) + 1 / 2 ^ 150 := by
  have ends {m n : ℤ} (hm : |(m : ℝ) - x * enclOne| ≤ e) (hn : |(n : ℝ) - y * enclOne| ≤ e')
      (hfin : fIsFinite (rndF m n.toNat) = true) :
      |((valF (rndF m n.toNat) : ℚ) : ℝ) - x / y| ≤
        |x / y| / 2 ^ 24 + 2 * (2 * (e + |x / y| * e') / (y * enclOne)) + 1 / 2 ^ 150 := by
    obtain ⟨hpos, hnear⟩ := div_ends_near hm hn hy he'
    have hround := rndF_error m (by omega) hfin
    have hcast : ((n.toNat : ℕ) : ℝ) = n := by exact_mod_cast Int.toNat_of_nonneg hpos.le
    rw [hcast] at hround
    have hsize : |(m : ℝ) / n| ≤ |x / y| + 2 * (e + |x / y| * e') / (y * enclOne) := by
      have := abs_sub_abs_le_abs_sub ((m : ℝ) / n) (x / y)
      linarith
    have hdelta := (abs_nonneg _).trans hnear
    refine (abs_sub_le _ ((m : ℝ) / n) _).trans ?_
    linarith
  have hchoice : rndQuotient g d = rndF g.lo (if 0 ≤ g.lo then d.hi else d.lo : ℤ).toNat ∨
      rndQuotient g d = rndF g.hi (if 0 ≤ g.hi then d.lo else d.hi : ℤ).toNat := by
    unfold rndQuotient decideRounding
    dsimp only
    rw [apply_ite Int.toNat, apply_ite Int.toNat]
    split_ifs <;> simp
  obtain h | h := hchoice
  · rw [h] at hfin ⊢
    exact ends hg.lo (hd.ite_hi_lo _) hfin
  · rw [h] at hfin ⊢
    exact ends hg.hi (hd.ite_lo_hi _) hfin

theorem normalizeRow_taps {gs : List Encl} {row : List F} (h : normalizeRow gs = some row) :
    (0 < (enclSum gs).lo ∧ row = gs.map fun g => rndQuotient g (enclSum gs)) ∨
    ((enclSum gs).hi < 0 ∧ row = gs.map fun g => rndQuotient (enclNeg g) (enclNeg (enclSum gs))) := by
  unfold normalizeRow at h
  dsimp only at h
  split at h
  next taps htaps =>
    split at h
    next =>
      cases h
      split_ifs at htaps with hpos hneg
      · exact .inl ⟨hpos, (Option.some.inj htaps).symm⟩
      · exact .inr ⟨hneg, (Option.some.inj htaps).symm⟩
    next => cases h
  next => cases h

/-! ## The taps of a bank (R143 to R145) -/

/-- The quotient of a tap by a gain that is not small: the errors of both are far below the tolerance of log 10. -/
theorem rndQuotient_tolerance {g d : Encl} {x y : ℝ} (hg : EnclNear g x (2 ^ 20)) (hd : EnclNear d y (2 ^ 30))
    (hy : 100 / 2 ^ 100 ≤ y) (hfin : fIsFinite (rndQuotient g d) = true) :
    |((valF (rndQuotient g d) : ℚ) : ℝ) - x / y| ≤ |x / y| / 2 ^ 23 + 1 / 2 ^ 120 := by
  have hpos : 0 < y := lt_of_lt_of_le (by norm_num) hy
  have hunits : 2 ^ 162 ≤ y * enclOne := by
    calc (2 : ℝ) ^ 162 ≤ 100 / 2 ^ 100 * enclOne := by
          rw [enclOne_eq]
          norm_num
      _ ≤ y * enclOne := mul_le_mul_of_nonneg_right hy enclOne_pos.le
  refine (rndQuotient_near hg hd hpos (by linarith) hfin).trans ?_
  have herror : 2 * (2 ^ 20 + |x / y| * 2 ^ 30) / (y * enclOne) ≤ 2 * (2 ^ 20 + |x / y| * 2 ^ 30) / 2 ^ 162 := by gcongr
  have hsize := abs_nonneg (x / y)
  linarith

/-- An enclosure that lies on one side of 0 has its real there, when the real is not small beside the error. -/
theorem sign_of_near {d : Encl} {y : ℝ} (hd : EnclNear d y (2 ^ 30)) (hy : 100 / 2 ^ 100 ≤ |y|) :
    (0 < d.lo → 100 / 2 ^ 100 ≤ y) ∧ (d.hi < 0 → 100 / 2 ^ 100 ≤ -y) := by
  have hunits : 100 / 2 ^ 100 * (enclOne : ℝ) = 100 * 2 ^ 156 := by
    rw [enclOne_eq]
    norm_num
  have hone := enclOne_pos
  obtain ⟨habs, hpos⟩ | ⟨habs, hneg⟩ := abs_cases y <;> rw [habs] at hy
  · refine ⟨fun _ => hy, fun hhi => ?_⟩
    have hhi' : (d.hi : ℝ) < 0 := by exact_mod_cast hhi
    have hscaled := mul_le_mul_of_nonneg_right hy hone.le
    linarith [neg_le_of_abs_le hd.hi]
  · refine ⟨fun hlo => ?_, fun _ => hy⟩
    have hlo' : (0 : ℝ) < d.lo := by exact_mod_cast hlo
    have hscaled := mul_le_mul_of_nonneg_right hy hone.le
    linarith [le_of_abs_le hd.lo]

/-- A tap of a phase whose gain is not small is the quotient of R145 to within the tolerance. -/
theorem normalizeRow_near {n t fc fs p i : ℕ} {row : List F} {a : F} (hn : 0 < n) (hle : t ≤ 1024) (hfs : 0 < fs)
    (hi : i < t) (h : normalizeRow (prototypeRow n t fc fs p) = some row) (ha : row[i]? = some a)
    (hgain : 100 / 2 ^ 100 ≤ |gainOf n t fc fs p|) :
    |((valF a : ℚ) : ℝ) - tapOf n (n * t) fc fs (i * n + p) / gainOf n t fc fs p| ≤
      |tapOf n (n * t) fc fs (i * n + p) / gainOf n t fc fs p| / 2 ^ 23 + 1 / 2 ^ 120 := by
  have ht : 0 < t := by omega
  have htap := prototypeTap_near (fc := fc) (i * n + p) hn (Nat.mul_pos hn ht) hfs
  have hsum := enclSum_prototypeRow_near (fc := fc) p hn ht hle hfs
  have hfin : fIsFinite a = true := (normalizeRow_eq_some h).2 a (List.mem_of_getElem? ha)
  have hentry : (prototypeRow n t fc fs p)[i]? = some (prototypeTap n (n * t) fc fs (i * n + p)) := by
    simp [prototypeRow, hi]
  obtain ⟨positive, negative⟩ := sign_of_near hsum hgain
  obtain ⟨hpos, rfl⟩ | ⟨hneg, rfl⟩ := normalizeRow_taps h
  · rw [List.getElem?_map, hentry] at ha
    obtain rfl := Option.some.inj ha
    exact rndQuotient_tolerance htap hsum (positive hpos) hfin
  · rw [List.getElem?_map, hentry] at ha
    obtain rfl := Option.some.inj ha
    rw [← neg_div_neg_eq]
    exact rndQuotient_tolerance (enclNeg_near htap) (enclNeg_near hsum) (negative hneg) hfin

theorem val64_eq_toNat {c : CF} (h : 0 < cfScaled c) : ((val64 c : ℚ) : ℝ) = (cfScaled c).toNat / 2 ^ 1074 := by
  have hcast : ((cfScaled c : ℤ) : ℝ) = (cfScaled c).toNat := by
    exact_mod_cast congrArg (Int.cast (R := ℝ)) (Int.toNat_of_nonneg h.le).symm
  rw [val64_eq_cfScaled, Rat.cast_div, Rat.cast_intCast, hcast, Rat.cast_pow, Rat.cast_ofNat]

/-- The cut-off and the rate in lowest terms, as the machine reads them. -/
theorem designBank_eq (n t : ℕ) {rate cutoff : CF} (hrate : 0 < cfScaled rate) (hcutoff : 0 < cfScaled cutoff) :
    ∃ fc fs : ℕ, ∃ c : ℝ, 0 < fc ∧ 0 < fs ∧ 0 < c ∧ ((val64 rate : ℚ) : ℝ) = c * fs ∧
      ((val64 cutoff : ℚ) : ℝ) = c * fc ∧ designBank n t rate cutoff = designRows n t fc fs n 0 := by
  have hfs : 0 < (cfScaled rate).toNat := by omega
  have hfc : 0 < (cfScaled cutoff).toNat := by omega
  have hg : 0 < Nat.gcd (cfScaled cutoff).toNat (cfScaled rate).toNat := Nat.gcd_pos_of_pos_left _ hfc
  have hdvdc := Nat.gcd_dvd_left (cfScaled cutoff).toNat (cfScaled rate).toNat
  have hdvds := Nat.gcd_dvd_right (cfScaled cutoff).toNat (cfScaled rate).toNat
  have lowest {m g : ℕ} (hdvd : g ∣ m) (hg : 0 < g) : (m : ℝ) / 2 ^ 1074 = g / 2 ^ 1074 * (m / g : ℕ) := by
    rw [Nat.cast_div hdvd (by exact_mod_cast hg.ne'), div_mul_div_comm, mul_comm (2 ^ 1074 : ℝ),
      mul_div_mul_left _ _ (by exact_mod_cast hg.ne')]
  refine ⟨_, _, Nat.gcd (cfScaled cutoff).toNat (cfScaled rate).toNat / 2 ^ 1074, Nat.div_pos (Nat.le_of_dvd hfc hdvdc) hg,
    Nat.div_pos (Nat.le_of_dvd hfs hdvds) hg, div_pos (by exact_mod_cast hg) (pow_pos two_pos _), ?_, ?_, rfl⟩
  · rw [val64_eq_toNat hrate, lowest hdvds hg]
  · rw [val64_eq_toNat hcutoff, lowest hdvdc hg]

theorem phaseGain_scale {c : ℝ} (hc : c ≠ 0) (n t : ℕ) (fs fc : ℝ) (p : ℕ) :
    phaseGain n t (c * fs) (c * fc) p = phaseGain n t fs fc p :=
  Finset.sum_congr rfl fun _ _ => prototypeOf_scale hc n t fs fc _

/-- Settles O26: the enclosures of a tap and of its phase's gain are so narrow that every quotient of their ends rounds to
within the tolerance of the real quotient, whichever rounding is chosen. -/
theorem bankFollowsPrototype : Obligations.BankFollowsPrototype := by
  unfold Obligations.BankFollowsPrototype
  intro n t rate cutoff bank p i a hlegal hbank hp hi ha
  have hvalid := (createValid_iff n t rate cutoff).2 hlegal
  obtain ⟨-, -, -, -, -, hrate, hcutoff, -⟩ := hlegal
  obtain ⟨hn, -, -, ht, -⟩ := createValid_sizes hvalid
  obtain ⟨fc, fs, c, hfc, hfs, hc, hfsEq, hfcEq, hrows⟩ :=
    designBank_eq n.toNat t.toNat ((val64_pos_iff rate).1 hrate) ((val64_pos_iff cutoff).1 hcutoff)
  rw [hrows] at hbank
  obtain ⟨row, hrow, hread⟩ := designRows_getElem? hbank hp hi
  rw [Nat.zero_add] at hrow
  rw [hread] at ha
  have hunit : 2 * (c * fc) / (n.toNat * (c * fs)) = 2 * (fc : ℝ) / (n.toNat * fs) := by
    rw [mul_left_comm, mul_left_comm (n.toNat : ℝ), mul_div_mul_left _ _ hc.ne']
  have hpos : 0 < 2 * (fc : ℝ) / (n.toNat * fs) := by positivity
  dsimp only
  rw [hfsEq, hfcEq, hunit, phaseGain_scale hc.ne', prototypeOf_scale hc.ne', phaseGain_eq p hn hfs hfc,
    prototypeOf_eq _ hn hfs hfc, mul_div_mul_left _ _ (by positivity)]
  intro hgain
  refine normalizeRow_near hn ht hfs hi hrow ha ?_
  generalize 2 * (fc : ℝ) / (n.toNat * fs) = unit at hpos hgain
  rw [abs_mul, abs_of_pos (div_pos hpos (by norm_num))] at hgain
  exact le_of_mul_le_mul_left (a := unit) (by linarith) hpos

end Sys2Proof.Proofs
end

section
/-!
PROOF. The NCO commands (42_nco.md): the check and the increment of NCO.SETFREQ, the advance and the lookup are those of R181,
R182, R184, R185 and R187 in rationals and naturals; whole turns (R192) and the realised frequency (R183).
-/

namespace Sys2Proof.Proofs

open Sys2Proof.Machine Sys2Proof.Claims

/-! ## A command on a unit -/

/-- A command on a unit that is there does what the unit answers (R83). -/
theorem exec_of_unit {κ : Kind} {i : Instr} {k : BitVec 4} {s : State} {f : UnitOf κ → Answer (UnitOf κ)} {u : UnitOf κ}
    (hc : UnitCommand s.cfg κ i k f) (hk : (units κ s)[k.toNat]? = some u) : exec i s = settleAnswer κ k s (f u) :=
  (exec_of_unitCommand hc).trans (onUnit_of_some f hk)

/-- A completed NCO command writes its unit and sends the results without a flag (R54, R80). -/
theorem exec_nco_done {i : Instr} {k : BitVec 4} {s : State} {f : Nco → Answer Nco} {u v : Nco} {w : Word} {ws : List Word}
    (hc : UnitCommand s.cfg .nco i k f) (hk : s.nco[k.toNat]? = some u) (hf : f u = .done v Flags.none ws)
    (hw : statusWord 0 Flags.none ws.length = w) :
    exec i s = .next { s with nco := s.nco.set k.toNat v, response := w :: ws } := by
  rw [exec_of_unit (κ := .nco) hc hk, hf, ← hw]
  rfl

theorem set_same {α : Type} {l : List α} {n : ℕ} {a : α} (h : l[n]? = some a) : l.set n a = l := by
  obtain ⟨_, rfl⟩ := List.getElem?_eq_some_iff.1 h
  exact List.set_getElem_self _

theorem statusWord_noResult : statusWord 0 Flags.none 0 = 0x00000000#32 := by decide

theorem statusWord_oneResult : statusWord 0 Flags.none 1 = 0x00010000#32 := by decide

theorem statusWord_twoResults : statusWord 0 Flags.none 2 = 0x00020000#32 := by decide

/-! ## Rounding half away from zero (R118) -/

theorem floor_add_half (n : ℤ) {d : ℕ} (hd : 0 < d) : ⌊(n : ℚ) / d + 1 / 2⌋ = (2 * n + d) / (2 * d) := by
  have hsum : (n : ℚ) / d + 1 / 2 = ((2 * n + d : ℤ) : ℚ) / ((2 * d : ℕ) : ℚ) := by
    have hd' : (d : ℚ) ≠ 0 := by exact_mod_cast hd.ne'
    push_cast
    field_simp
  rw [hsum, Rat.floor_intCast_div_natCast]
  push_cast
  rfl

/-- The rounding of the machine is that of R118. -/
theorem rhaQ_div (n : ℤ) {d : ℕ} (hd : 0 < d) : rhaQ (n / d) = rha n d := by
  have hd' : (0 : ℚ) < d := by exact_mod_cast hd
  have hsign : (0 : ℚ) ≤ n / d ↔ 0 ≤ n := by
    rw [le_div_iff₀ hd', zero_mul, Int.cast_nonneg_iff]
  unfold rhaQ rha
  by_cases hn : 0 ≤ n
  · rw [if_pos (hsign.2 hn), if_pos hn, floor_add_half n hd]
  · rw [if_neg (mt hsign.1 hn), if_neg hn, ← neg_div, ← Int.cast_neg, floor_add_half (-n) hd]

theorem abs_rhaQ_sub_le (q : ℚ) : |(rhaQ q : ℚ) - q| ≤ 1 / 2 := by
  have nearest (r : ℚ) : |(⌊r + 1 / 2⌋ : ℚ) - r| ≤ 1 / 2 := by
    have hle := Int.floor_le (r + 1 / 2)
    have hlt := Int.lt_floor_add_one (r + 1 / 2)
    exact abs_le.2 ⟨by linarith, by linarith⟩
  unfold rhaQ
  split
  next => exact nearest q
  next =>
    rw [Int.cast_neg, ← abs_neg, neg_sub, sub_neg_eq_add, add_comm, ← sub_neg_eq_add]
    exact nearest (-q)

/-! ## NCO.SETFREQ (R181, R182) -/

/-- The check of the machine is that of R181. -/
theorem setfreqValid_iff (c : Config) (db : BitVec 6) (freq rate : CF) :
    setfreqValid c db freq rate = true ↔ fin64 freq ∧ fin64 rate ∧ 0 < val64 rate ∧ db.toNat ≤ c.pb - 12 := by
  unfold setfreqValid Config.tb
  simp only [Bool.and_eq_true, decide_eq_true_eq, fin64_iff, val64_pos_iff, and_assoc]

/-- The units of the two operands cancel in the quotient of R182. -/
theorem ncoIncrement_eq (pb : ℕ) (freq : CF) {rate : CF} (hrate : 0 < val64 rate) :
    ncoIncrement pb freq rate = incrementOf pb freq rate := by
  have hscaled : 0 < cfScaled rate := (val64_pos_iff rate).1 hrate
  have hcast : ((cfScaled rate : ℤ) : ℚ) = (cfScaled rate).toNat := by
    exact_mod_cast congrArg (Int.cast (R := ℚ)) (Int.toNat_of_nonneg hscaled.le).symm
  have hquotient : val64 freq * 2 ^ pb / val64 rate = ((cfScaled freq * 2 ^ pb : ℤ) : ℚ) / (cfScaled rate).toNat := by
    rw [val64_eq_cfScaled, val64_eq_cfScaled, div_mul_eq_mul_div, div_div_div_cancel_right₀ (by positivity), hcast]
    push_cast
    rfl
  rw [ncoIncrement, incrementOf, hquotient, rhaQ_div _ (by omega), phaseOfInt, Nat.cast_pow, Nat.cast_ofNat]

theorem incrementOf_toNat (c : Config) (freq rate : CF) :
    ((incrementOf c.pb freq rate).toNat : ℤ) = rhaQ (val64 freq * 2 ^ c.pb / val64 rate) % 2 ^ c.pb := by
  have hpow : (0 : ℤ) < 2 ^ c.pb := by positivity
  have hnonneg := Int.emod_nonneg (rhaQ (val64 freq * 2 ^ c.pb / val64 rate)) hpow.ne'
  have hlt := Int.emod_lt_of_pos (rhaQ (val64 freq * 2 ^ c.pb / val64 rate)) hpow
  have hwidth : (2 : ℤ) ^ c.pb ≤ 2 ^ 64 := by exact_mod_cast two_pow_pb_le c
  rw [incrementOf, BitVec.toNat_ofNat, Nat.mod_eq_of_lt (by omega), Int.toNat_of_nonneg hnonneg]

/-- The unit after NCO.SETFREQ with valid operands. -/
def tuned (pb : ℕ) (ip : Bool) (db : BitVec 6) (freq rate : CF) (u : Nco) : Nco :=
  { cfgValid := true, phase := u.phase, inc := incrementOf pb freq rate, ditherBits := db, intPhase := ip, lfsr := u.lfsr,
    dphase := u.phase }

theorem ncoSetfreqAnswer_of_valid {c : Config} {ip : Bool} {db : BitVec 6} {freq rate : CF}
    (h : setfreqValid c db freq rate = true) (u : Nco) :
    ncoSetfreqAnswer c ip db freq rate u = .done (tuned c.pb ip db freq rate u) Flags.none [] := by
  obtain ⟨-, -, hrate, -⟩ := (setfreqValid_iff c db freq rate).1 h
  rw [ncoSetfreqAnswer, if_pos h, ncoIncrement_eq _ _ hrate, tuned]

theorem ncoSetfreqAnswer_of_invalid {c : Config} {ip : Bool} {db : BitVec 6} {freq rate : CF}
    (h : ¬ setfreqValid c db freq rate = true) (u : Nco) :
    ncoSetfreqAnswer c ip db freq rate u = .invalid { u with cfgValid := false } :=
  if_neg h

/-- Settles O36. -/
theorem setfreqSetsIncrement : Obligations.SetfreqSetsIncrement := by
  unfold Obligations.SetfreqSetsIncrement
  intro s k ip db freq rate u hk hfreq hrate hpos hdb
  have hvalid : setfreqValid s.cfg db freq rate = true := (setfreqValid_iff ..).2 ⟨hfreq, hrate, hpos, hdb⟩
  exact exec_nco_done (.setfreq k ip db freq rate) hk (ncoSetfreqAnswer_of_valid hvalid u)
    statusWord_noResult

/-- Settles O37. -/
theorem setfreqRejects : Obligations.SetfreqRejects := by
  unfold Obligations.SetfreqRejects
  intro s k ip db freq rate u hk hreject
  have hinvalid : ¬ setfreqValid s.cfg db freq rate = true := by
    rw [setfreqValid_iff]
    rintro ⟨hfreq, hrate, hpos, hdb⟩
    exact hreject.elim (· hfreq) (·.elim (· hrate) (·.elim hpos.not_ge hdb.not_gt))
  rw [exec_of_unit (κ := .nco) (.setfreq k ip db freq rate) hk, ncoSetfreqAnswer_of_invalid hinvalid]
  rfl

/-- A configured unit after NCO.SETFREQ is one whose operands were valid (R181). -/
theorem setfreq_succeeds {s t : State} {k : BitVec 4} {ip : Bool} {db : BitVec 6} {freq rate : CF} {u : Nco}
    (h : exec (.ncoSetfreq k ip db freq rate) s = .next t) (hk : t.nco[k.toNat]? = some u) (hu : u.cfgValid = true) :
    0 < val64 rate ∧ u.inc = incrementOf s.cfg.pb freq rate := by
  cases hk' : s.nco[k.toNat]? with
  | none =>
    rw [exec_of_unitCommand (.setfreq k ip db freq rate), onUnit_of_none (κ := .nco) _ hk'] at h
    cases h
    cases hk'.symm.trans hk
  | some v =>
    have hlt : k.toNat < s.nco.length := (List.getElem?_eq_some_iff.1 hk').1
    rw [exec_of_unit (κ := .nco) (.setfreq k ip db freq rate) hk'] at h
    by_cases hvalid : setfreqValid s.cfg db freq rate = true
    · obtain ⟨-, -, hrate, -⟩ := (setfreqValid_iff ..).1 hvalid
      rw [ncoSetfreqAnswer_of_valid hvalid] at h
      cases h
      cases (List.getElem?_set_self hlt).symm.trans hk
      exact ⟨hrate, rfl⟩
    · rw [ncoSetfreqAnswer_of_invalid hvalid] at h
      cases h
      cases (List.getElem?_set_self hlt).symm.trans hk
      cases hu

/-- Settles O42: the multiple of the rate is what the reduction modulo `2^PB` takes from the rounded quotient, and the rounding
is off by at most a half. -/
theorem realizedFrequencyIsNear : Obligations.RealizedFrequencyIsNear := by
  unfold Obligations.RealizedFrequencyIsNear
  intro s t k ip db freq rate u h hk hu
  obtain ⟨hrate, hinc⟩ := setfreq_succeeds h hk hu
  have hunreduced := congrArg (Int.cast (R := ℚ)) (incrementOf_toNat s.cfg freq rate)
  have hnear := abs_rhaQ_sub_le (val64 freq * 2 ^ s.cfg.pb / val64 rate)
  generalize rhaQ (val64 freq * 2 ^ s.cfg.pb / val64 rate) = n at hunreduced hnear
  have hwhole : ((u.inc.toNat : ℚ) + (n / 2 ^ s.cfg.pb : ℤ) * 2 ^ s.cfg.pb) = n := by
    rw [hinc]
    have hdiv := congrArg (Int.cast (R := ℚ)) (Int.emod_add_ediv_mul n (2 ^ s.cfg.pb))
    push_cast at hunreduced hdiv ⊢
    rw [hunreduced]
    exact hdiv
  refine ⟨n / 2 ^ s.cfg.pb, ?_⟩
  rw [hwhole]
  have hstep : (0 : ℚ) < val64 rate / 2 ^ s.cfg.pb := by positivity
  calc |(n : ℚ) * val64 rate / 2 ^ s.cfg.pb - val64 freq|
      = |((n : ℚ) - val64 freq * 2 ^ s.cfg.pb / val64 rate) * (val64 rate / 2 ^ s.cfg.pb)| := by
        congr 1
        field_simp
    _ = |(n : ℚ) - val64 freq * 2 ^ s.cfg.pb / val64 rate| * (val64 rate / 2 ^ s.cfg.pb) := by
        rw [abs_mul, abs_of_pos hstep]
    _ ≤ 1 / 2 * (val64 rate / 2 ^ s.cfg.pb) := mul_le_mul_of_nonneg_right hnear hstep.le
    _ = val64 rate / 2 ^ (s.cfg.pb + 1) := by
        rw [pow_succ]
        ring

/-! ## The advance (R123, R184, R185) -/

theorem lfsrStep_toNat (l : Word) :
    (lfsrStep l).toNat = if l.toNat % 2 = 1 then l.toNat / 2 ^^^ 0x80200003 else l.toNat / 2 := by
  have hshift : (l >>> 1).toNat = l.toNat / 2 := by rw [BitVec.toNat_ushiftRight, Nat.shiftRight_one]
  have hbit : l.getLsbD 0 = true ↔ l.toNat % 2 = 1 := by
    rw [BitVec.getLsbD, Nat.testBit_zero, decide_eq_true_eq]
  unfold lfsrStep
  by_cases h : l.toNat % 2 = 1
  · rw [if_pos h, if_pos (hbit.2 h), BitVec.toNat_xor, hshift]
    rfl
  · rw [if_neg h, if_neg (mt hbit.1 h), hshift]

theorem ditherValue_toNat (bits : BitVec 6) (l : Word) : (ditherValue bits l).toNat = l.toNat % 2 ^ bits.toNat :=
  Nat.mod_eq_of_lt ((Nat.mod_le _ _).trans_lt (l.isLt.trans (by decide)))

/-- The advance of the machine is that of the rules in naturals. -/
theorem ncoAdvance_eq (c : Config) (u : Nco) : ncoAdvance c.pb u = advanced c.pb u := by
  have hbits : u.ditherBits = 0#6 ↔ u.ditherBits.toNat = 0 := BitVec.toNat_inj.symm
  unfold ncoAdvance advanced
  dsimp only
  rw [← lfsrStep_toNat, ← ditherValue_toNat, ← phaseAdd_toNat, BitVec.ofNat_toNat, BitVec.setWidth_eq]
  by_cases h : u.ditherBits = 0#6
  · rw [if_pos h, if_pos (hbits.1 h)]
  · rw [if_neg h, if_neg (mt hbits.2 h), BitVec.ofNat_toNat, BitVec.setWidth_eq]
    rfl

/-- NCO.NEXTPHASE on a configured unit (R186). -/
theorem exec_ncoNextphase {k : BitVec 4} {s : State} {u : Nco} (hk : s.nco[k.toNat]? = some u) (hu : u.cfgValid = true) :
    exec (.ncoNextphase k) s = .next { s with
      nco := s.nco.set k.toNat (ncoAdvance s.cfg.pb u), response := [0x00000000#32] } :=
  exec_nco_done (.nextphase k) hk (ncoConfigured_true hu _) statusWord_noResult

/-- Settles O38. -/
theorem nextphaseAdvances : Obligations.NextphaseAdvances := by
  unfold Obligations.NextphaseAdvances
  intro s k u hk hu
  rw [exec_ncoNextphase hk hu, ncoAdvance_eq]

/-! ## The lookup (R187 to R189) -/

theorem cosTable_getD {i : ℕ} (hi : i < 4096) : cosTable.getD i 0#32 = cosRead i := by
  rw [cosTable, List.getD_eq_getElem?_getD, List.getElem?_map, List.getElem?_range (show i < 2 ^ Config.tb from hi)]
  rfl

theorem twelve_le_pb (c : Config) : 12 ≤ c.pb := by
  unfold Config.pb PhaseBits.bits
  split <;> omega

/-- The lookup of the machine is that of R187 in naturals. -/
theorem ncoLookup_eq (c : Config) (ip : Bool) {φ : DWord} (h : φ.toNat < 2 ^ c.pb) :
    ncoLookup c ip φ = sampleAt c.pb ip φ.toNat := by
  have hwidth : 2 ^ c.pb = 2 ^ (c.pb - 12) * 4096 := by
    rw [show 4096 = 2 ^ 12 by rfl, ← pow_add, Nat.sub_add_cancel (twelve_le_pb c)]
  have hidx : φ.toNat / 2 ^ (c.pb - 12) < 4096 := Nat.div_lt_of_lt_mul (hwidth ▸ h)
  have hfull : 2 ^ Config.tb = 4096 := rfl
  have hnext : (φ.toNat / 2 ^ (c.pb - 12) + 1) % 4096 < 4096 := Nat.mod_lt _ (by omega)
  unfold ncoLookup sampleAt
  dsimp only
  rw [cosTable_getD hidx, cosTable_getD hnext, hfull, show c.fb = c.pb - 12 from rfl, Nat.mod_eq_of_lt hidx]
  rfl

theorem toNat_phaseAdd_quarter (c : Config) (φ : DWord) :
    (phaseAdd c.pb φ (BitVec.ofNat 64 (2 ^ (c.pb - 2)))).toNat = (φ.toNat + 2 ^ (c.pb - 2)) % 2 ^ c.pb := by
  have hlt : 2 ^ (c.pb - 2) < 2 ^ 64 := by
    refine (Nat.pow_lt_pow_right (by omega) ?_).trans_le (two_pow_pb_le c)
    have := twelve_le_pb c
    omega
  rw [phaseAdd_toNat, BitVec.toNat_ofNat, Nat.mod_eq_of_lt hlt]

/-- The sample and the pair of the machine are those of R188 and R189. -/
theorem nco_pair_eq (c : Config) {u : Nco} (h : u.dphase.toNat < 2 ^ c.pb) :
    (ncoI c u, ncoQ c u) = pairAt c.pb u.intPhase u.dphase.toNat := by
  rw [ncoI, ncoQ, ncoLookup_eq c _ h, ncoLookup_eq c _ (phaseAdd_lt c _ _), toNat_phaseAdd_quarter]
  rfl

/-- NCO.GET on a configured unit, which is written back as it was. -/
theorem exec_ncoGet {k : BitVec 4} {s : State} {u : Nco} (hk : s.nco[k.toNat]? = some u) (hu : u.cfgValid = true) :
    exec (.ncoGet k) s = .next { s with response := [0x00010000#32, ncoI s.cfg u] } := by
  rw [exec_nco_done (.get k) hk (ncoConfigured_true hu _) statusWord_oneResult, set_same hk]

/-- NCO.GETIQ on a configured unit, which is written back as it was. -/
theorem exec_ncoGetiq {k : BitVec 4} {s : State} {u : Nco} (hk : s.nco[k.toNat]? = some u) (hu : u.cfgValid = true) :
    exec (.ncoGetiq k) s = .next { s with response := [0x00020000#32, ncoI s.cfg u, ncoQ s.cfg u] } := by
  rw [exec_nco_done (.getiq k) hk (ncoConfigured_true hu _) statusWord_twoResults, set_same hk]

/-- Settles O39. -/
theorem getAnswersSampleOfPhase : Obligations.GetAnswersSampleOfPhase := by
  unfold Obligations.GetAnswersSampleOfPhase
  intro s k u hk hu hok
  rw [exec_ncoGet hk hu, exec_ncoGetiq hk hu, ← nco_pair_eq s.cfg hok.dphase_lt]
  exact ⟨rfl, rfl⟩

/-- Settles O40. -/
theorem nextIsNextphaseThenGet : Obligations.NextIsNextphaseThenGet := by
  unfold Obligations.NextIsNextphaseThenGet
  intro s k u hk hu
  have hlt : k.toNat < s.nco.length := (List.getElem?_eq_some_iff.1 hk).1
  have hk' : (s.nco.set k.toNat (ncoAdvance s.cfg.pb u))[k.toNat]? = some (ncoAdvance s.cfg.pb u) :=
    List.getElem?_set_self hlt
  have hu' : (ncoAdvance s.cfg.pb u).cfgValid = true := (ncoAdvance_config s.cfg.pb u).1.trans hu
  exact ⟨_, _, _, exec_ncoNextphase hk hu, exec_ncoGet hk' hu',
    exec_nco_done (.next k) hk (ncoConfigured_true hu _) statusWord_oneResult, exec_ncoGetiq hk' hu',
    exec_nco_done (.nextiq k) hk (ncoConfigured_true hu _) statusWord_twoResults, ⟨_, rfl⟩, ⟨_, _, rfl⟩⟩

/-! ## Whole turns (R192) -/

/-- `m` advances in a row are `m` steps of the unit. -/
theorem repeatExec_nextphase {k : BitVec 4} {s : State} {u : Nco} (hk : s.nco[k.toNat]? = some u) (hu : u.cfgValid = true)
    (m : ℕ) :
    repeatExec (.ncoNextphase k) (m + 1) s = .next { s with
      nco := s.nco.set k.toNat ((ncoAdvance s.cfg.pb)^[m + 1] u), response := [0x00000000#32] } := by
  induction m generalizing s u with
  | zero =>
    rw [repeatExec, exec_ncoNextphase hk hu]
    rfl
  | succ m ih =>
    have hlt : k.toNat < s.nco.length := (List.getElem?_eq_some_iff.1 hk).1
    have hu' : (ncoAdvance s.cfg.pb u).cfgValid = true := (ncoAdvance_config s.cfg.pb u).1.trans hu
    rw [repeatExec, exec_ncoNextphase hk hu]
    dsimp only
    rw [ih (List.getElem?_set_self hlt) hu', List.set_set]
    rfl

/-- The unit with both phases at `φ`, as it stands without dither. -/
def atPhase (u : Nco) (φ : ℕ) : Nco := { u with phase := BitVec.ofNat 64 φ, dphase := BitVec.ofNat 64 φ }

theorem atPhase_toNat {u : Nco} (h : u.dphase = u.phase) : atPhase u u.phase.toNat = u := by
  rw [atPhase, BitVec.ofNat_toNat, BitVec.setWidth_eq]
  cases u
  cases h
  rfl

theorem ncoAdvance_atPhase (c : Config) {u : Nco} (hdither : u.ditherBits = 0#6) {φ : ℕ} (hφ : φ < 2 ^ c.pb) :
    ncoAdvance c.pb (atPhase u φ) = atPhase u ((φ + u.inc.toNat) % 2 ^ c.pb) := by
  have hsum : phaseAdd c.pb (BitVec.ofNat 64 φ) u.inc = BitVec.ofNat 64 ((φ + u.inc.toNat) % 2 ^ c.pb) := by
    rw [phaseAdd, BitVec.toNat_ofNat, Nat.mod_eq_of_lt (hφ.trans_le (two_pow_pb_le c))]
  rw [ncoAdvance, if_pos (show (atPhase u φ).ditherBits = 0#6 from hdither), atPhase, atPhase, hsum]

theorem ncoAdvance_iterate_atPhase (c : Config) {u : Nco} (hdither : u.ditherBits = 0#6) {φ : ℕ} (hφ : φ < 2 ^ c.pb)
    (m : ℕ) : (ncoAdvance c.pb)^[m] (atPhase u φ) = atPhase u ((φ + m * u.inc.toNat) % 2 ^ c.pb) := by
  induction m with
  | zero => rw [Nat.zero_mul, Nat.add_zero, Nat.mod_eq_of_lt hφ, Function.iterate_zero_apply]
  | succ m ih =>
    rw [Function.iterate_succ_apply', ih, ncoAdvance_atPhase c hdither (Nat.mod_lt _ (Nat.two_pow_pos _)), Nat.mod_add_mod,
      Nat.add_assoc, ← Nat.succ_mul]

/-- Without dither the two phases of a configured unit are one (R37). -/
theorem dphase_eq_phase {pb : ℕ} {u : Nco} (hok : NcoOk pb u) (hu : u.cfgValid = true) (hdither : u.ditherBits = 0#6) :
    u.dphase = u.phase := by
  have hdistance := hok.dither_small hu
  have hd := hok.dphase_lt
  have hp := hok.phase_lt
  rw [hdither, BitVec.toNat_zero, pow_zero, Nat.lt_one_iff] at hdistance
  refine BitVec.eq_of_toNat_eq ?_
  obtain hlt | hge := Nat.lt_or_ge u.dphase.toNat u.phase.toNat
  · rw [Nat.mod_eq_of_lt (by omega)] at hdistance
    omega
  · rw [Nat.mod_eq_sub_mod (by omega), Nat.mod_eq_of_lt (by omega)] at hdistance
    omega

/-- Settles O41: by induction on the number of advances the unit ends at its phase plus that many increments, and whole turns
vanish modulo `2^PB`. -/
theorem wholeTurnsReturnPhase : Obligations.WholeTurnsReturnPhase := by
  unfold Obligations.WholeTurnsReturnPhase
  intro s k u m hk hu hok hdither hm hturns
  obtain ⟨m, rfl⟩ := Nat.exists_eq_succ_of_ne_zero hm.ne'
  have hsame : atPhase u u.phase.toNat = u := atPhase_toNat (dphase_eq_phase hok hu hdither)
  have hphase : (u.phase.toNat + (m + 1) * u.inc.toNat) % 2 ^ s.cfg.pb = u.phase.toNat := by
    rw [← Nat.add_mod_mod, hturns, Nat.add_zero, Nat.mod_eq_of_lt hok.phase_lt]
  have hreturns : (ncoAdvance s.cfg.pb)^[m + 1] u = u := by
    have hend := ncoAdvance_iterate_atPhase s.cfg hdither hok.phase_lt (m + 1)
    rwa [hphase, hsame] at hend
  rw [repeatExec_nextphase hk hu m, hreturns, set_same hk]

end Sys2Proof.Proofs
end

section
/-!
PROOF. The commands of a running loop (43_pll.md): the status word of a PLL command (R54, R86), the reads and the drain (R232 to
R235), and PLL.PROCESS (R220 to R230), whose arithmetic on the phase is that of the rules in rationals and naturals.
-/

namespace Sys2Proof.Proofs

open Sys2Proof.Machine Sys2Proof.Claims

/-! ## The status word (R54, R86) -/

theorem toNat_append_eq_add {m n : ℕ} (x : BitVec m) (y : BitVec n) : (x ++ y).toNat = x.toNat * 2 ^ n + y.toNat := by
  rw [BitVec.toNat_append, ← Nat.shiftLeft_add_eq_or_of_lt y.isLt, Nat.shiftLeft_eq]

/-- The fields of the status word of a completed command. -/
theorem statusWord_toNat (fl : Flags) {n : ℕ} (hn : n < 256) :
    (statusWord 0 fl n).toNat = n * 2 ^ 16 + fl.evovf.toNat * 2 ^ 12 + fl.evpend.toNat * 2 ^ 11 + fl.locked.toNat * 2 ^ 10 +
      fl.consumed.toNat * 2 ^ 9 + fl.valid.toNat * 2 ^ 8 := by
  have hnres : (BitVec.ofNat 8 n).toNat = n := Nat.mod_eq_of_lt hn
  simp only [statusWord, toNat_append_eq_add, BitVec.toNat_ofBool, hnres, BitVec.toNat_ofNat]
  omega

/-- The status word of a PLL command carries the flags of the unit. -/
theorem statusWord_pll (u : Pll) {n : ℕ} (hn : n < 256) : statusWord 0 (Flags.pll u) n = pllStatus u n := by
  have hlocked : (if u.lockCnt = u.lockDelay then 0x400 else 0) = u.locked.toNat * 2 ^ 10 := by
    by_cases h : u.lockCnt = u.lockDelay <;> simp [Pll.locked, h]
  have hpend : (if u.evq = [] then 0 else 0x800) = (!u.evq.isEmpty).toNat * 2 ^ 11 := by
    cases u.evq <;> simp
  have hovf : (if u.evOvf then 0x1000 else 0) = u.evOvf.toNat * 2 ^ 12 := by
    cases u.evOvf <;> rfl
  have := Bool.toNat_lt u.locked
  have := Bool.toNat_lt (!u.evq.isEmpty)
  have := Bool.toNat_lt u.evOvf
  refine BitVec.eq_of_toNat_eq ?_
  rw [statusWord_toNat _ hn, pllStatus, BitVec.toNat_ofNat, hlocked, hpend, hovf]
  simp only [Flags.pll, Bool.toNat_false]
  omega

/-- A completed PLL command writes its unit and sends the results under the flags of the unit `w` (R54, R80). -/
theorem exec_pll_done {i : Instr} {k : BitVec 4} {s : State} {f : Pll → Answer Pll} {u v w : Pll} {ws : List Word}
    (hc : UnitCommand s.cfg .pll i k f) (hk : s.pll[k.toNat]? = some u) (hf : f u = .done v (Flags.pll w) ws)
    (hws : ws.length < 256) :
    exec i s = .next { s with pll := s.pll.set k.toNat v, response := pllStatus w ws.length :: ws } := by
  rw [exec_of_unit (κ := .pll) hc hk, hf, ← statusWord_pll w hws]
  rfl

/-- A completed PLL command that leaves its unit as it was writes nothing. -/
theorem exec_pll_read {i : Instr} {k : BitVec 4} {s : State} {f : Pll → Answer Pll} {u : Pll} {ws : List Word}
    (hc : UnitCommand s.cfg .pll i k f) (hk : s.pll[k.toNat]? = some u) (hf : f u = .done u (Flags.pll u) ws)
    (hws : ws.length < 256) : exec i s = .next { s with response := pllStatus u ws.length :: ws } := by
  rw [exec_pll_done hc hk hf hws, set_same hk]

/-! ## Result words (R85, R89) -/

theorem dwordWords_eq (v : DWord) : dwordWords v = [v.setWidth 32, (v >>> 32).setWidth 32] := by
  rw [dwordWords, lowWord_eq_setWidth, highWord_eq_setWidth]

theorem outVec_words_eq (pb : PhaseBits) (o : OutVec) : o.words pb = outWords pb o := by
  cases o with
  | simple s c => rfl
  | stereo s c s2 c2 => rfl
  | rds s c ph =>
    cases pb with
    | w32 => rw [OutVec.words, outWords, phaseWords, lowWord_eq_setWidth, List.cons_append, List.singleton_append]
    | w64 => rw [OutVec.words, outWords, phaseWords, dwordWords_eq, List.cons_append, List.singleton_append]

theorem outWords_length_le (pb : PhaseBits) (o : OutVec) : (outWords pb o).length ≤ 4 := by
  cases o with
  | simple s c => simp [outWords]
  | stereo s c s2 c2 => simp [outWords]
  | rds s c ph => cases pb <;> simp [outWords]

theorem eventRecord_words_eq : EventRecord.words = recordWords := by
  funext e
  rw [EventRecord.words, dwordWords_eq, recordWords, List.singleton_append, List.cons_append, List.cons_append,
    List.singleton_append]

theorem pllDrainWords_length (u : Pll) : (pllDrainWords u).length = 1 + 4 * u.evq.length := by
  have hrecord (e : EventRecord) : (recordWords e).length = 4 := rfl
  rw [pllDrainWords, eventRecord_words_eq, List.length_cons, List.length_flatMap]
  simp only [hrecord, List.map_const', List.sum_replicate_nat]
  omega

/-! ## Reads and the drain (R232 to R235) -/

/-- PLL.LOCKED on a configured unit (R232). -/
theorem exec_pllLocked {k : BitVec 4} {s : State} {u : Pll} (hk : s.pll[k.toNat]? = some u) (hu : u.cfgValid = true) :
    exec (.pllLocked k) s = .next { s with response := [pllStatus u 0] } :=
  exec_pll_read (ws := []) (.locked k) hk (pllConfigured_true hu _) (by simp)

/-- Settles O51. -/
theorem loopReadsWriteNothing : Obligations.LoopReadsWriteNothing := by
  unfold Obligations.LoopReadsWriteNothing
  intro s k u hk hu
  have hout := outWords_length_le s.cfg.phaseBits u.out
  refine ⟨exec_pllLocked hk hu, exec_pll_read (ws := [pllLevel u]) (.pilotlevel k) hk (pllConfigured_true hu _) (by simp), ?_⟩
  rw [← outVec_words_eq] at hout ⊢
  exact exec_pll_read (.getout k) hk (pllConfigured_true hu _) (by omega)

/-- Settles O52. -/
theorem drainEmptiesQueue : Obligations.DrainEmptiesQueue := by
  unfold Obligations.DrainEmptiesQueue
  intro s k u hk hu hok
  have hlength := pllDrainWords_length u
  have hqueue : u.evq.length ≤ 16 := hok.evq_le
  rw [exec_pll_done (.evdrain k) hk (pllConfigured_true hu _) (by omega), hlength, pllDrainWords, eventRecord_words_eq]
  rfl

/-! ## The loop of a sample (R220 to R229) -/

/-- The five values that the machine checks are those of R225. -/
theorem sampleFinite_iff (u : Pll) (x : F) : SampleFinite u x ↔ (loopStep u x).finite := by
  unfold Loop.finite
  simp only [finF_iff]
  exact ⟨fun ⟨hpilot, hpe, hfu, hsin, hcos⟩ => ⟨hpilot, hpe, hfu, hsin, hcos⟩,
    fun ⟨hpilot, hpe, hfu, hsin, hcos⟩ => ⟨hpilot, hpe, hfu, hsin, hcos⟩⟩

theorem pllProject_eq (v : Variant) (ps pc : F) (ph : DWord) : pllProject v ps pc ph = projection v ps pc ph := by
  cases v <;> rfl

theorem cyc2inc_eq (pb : ℕ) (a : F) : cyc2inc pb a = rhaQ (valF a * 2 ^ pb) := by
  have hquotient : valF a * 2 ^ pb = ((fScaled a * 2 ^ pb : ℤ) : ℚ) / (2 ^ 149 : ℕ) := by
    rw [valF_eq_fScaled]
    push_cast
    ring
  rw [hquotient, rhaQ_div _ (by positivity), cyc2inc]

/-- The queue and the overflow bit after a sample are those of R229. -/
theorem pllPushEvent_eq (u : Pll) (wrap : Bool) :
    (if wrap then pllPushEvent u else (u.evq, u.evOvf)) =
      (if wrap && u.even && !decide (16 ≤ u.evq.length) then u.evq ++ [⟨u.periodIdx, u.sampleCnt, u.blockPos⟩] else u.evq,
       if wrap && u.even && decide (16 ≤ u.evq.length) then true else u.evOvf) := by
  have hdepth : Config.evqDepth = 16 := rfl
  unfold pllPushEvent
  rw [hdepth]
  cases wrap with
  | false => rfl
  | true =>
    cases u.even with
    | false => rfl
    | true => by_cases hfull : 16 ≤ u.evq.length <;> simp [hfull]

theorem add_one_eq_ofNat {w : ℕ} (c : BitVec w) : c + 1#w = BitVec.ofNat w ((c.toNat + 1) % 2 ^ w) :=
  BitVec.eq_of_toNat_eq (by simp)

/-- The unit after a sample is that of R220. -/
theorem pllAfterSample_eq (pb : ℕ) (u : Pll) (x : F) : pllAfterSample pb u x = processed pb u x := by
  have hsum : pllPhaseSum pb u (loopStep u x).freq = phaseSum pb u (loopStep u x) := by
    rw [pllPhaseSum, cyc2inc_eq, phaseSum]
  change pllCommit pb u (loopStep u x).pilot (loopStep u x).pe (loopStep u x).freq (loopStep u x).ps (loopStep u x).pc = _
  unfold pllCommit processed
  dsimp only
  rw [hsum, pllPushEvent_eq, add_one_eq_ofNat u.periodIdx, add_one_eq_ofNat u.sampleCnt, add_one_eq_ofNat u.blockPos,
    pllProject_eq, phaseOfInt, Nat.cast_pow, Nat.cast_ofNat]
  rfl

/-- PLL.PROCESS of a finite sample whose loop values are finite commits them (R220, R225). -/
theorem pllProcessAnswer_of_finite {c : Config} {u : Pll} {x : F} (hx : finF x) (h : (loopStep u x).finite) :
    pllProcessAnswer c x u =
      .done (processed c.pb u x) (Flags.pll (processed c.pb u x)) (outWords c.phaseBits (projection u.variant u.ps u.pc u.phase)) := by
  obtain ⟨hpilot, hpe, hfu, hsin, hcos⟩ := (sampleFinite_iff u x).2 h
  rw [← pllAfterSample_eq, ← outVec_words_eq, pllProcessAnswer, (finF_iff x).1 hx]
  simp only [hpilot, hpe, hfu, hsin, hcos]
  rfl

/-- PLL.PROCESS of an infinite sample or a NaN (R222). -/
theorem pllProcessAnswer_of_not_finF {c : Config} {u : Pll} {x : F} (hx : ¬ finF x) :
    pllProcessAnswer c x u = .error .badOperand := by
  rw [finF_iff, Bool.not_eq_true] at hx
  rw [pllProcessAnswer, hx]
  rfl

/-- PLL.PROCESS of a finite sample with a loop value that is not finite (R225, R279). -/
theorem pllProcessAnswer_of_not_finite {c : Config} {u : Pll} {x : F} (hx : finF x) (h : ¬ (loopStep u x).finite) :
    pllProcessAnswer c x u = .error .numericOverflow := by
  rw [← sampleFinite_iff] at h
  unfold pllProcessAnswer
  dsimp only
  rw [(finF_iff x).1 hx, if_neg (by simp)]
  split
  next => rfl
  next hloop =>
    split
    next => rfl
    next hrotated =>
      simp only [Bool.not_eq_true', Bool.not_eq_false, Bool.and_eq_true] at hloop hrotated
      obtain ⟨⟨hpilot, hpe⟩, hfu⟩ := hloop
      obtain ⟨hsin, hcos⟩ := hrotated
      exact absurd ⟨hpilot, hpe, hfu, hsin, hcos⟩ h

/-- Settles O49. -/
theorem processAdvancesLoop : Obligations.ProcessAdvancesLoop := by
  unfold Obligations.ProcessAdvancesLoop
  intro s k x u hk hu hx hfin _
  have hout := outWords_length_le s.cfg.phaseBits (projection u.variant u.ps u.pc u.phase)
  exact exec_pll_done (.process k x) hk ((pllConfigured_true hu _).trans (pllProcessAnswer_of_finite hx hfin)) (by omega)

/-- Settles O50. -/
theorem nonFiniteLoopRaisesNumericOverflow : Obligations.NonFiniteLoopRaisesNumericOverflow := by
  unfold Obligations.NonFiniteLoopRaisesNumericOverflow
  intro s k x u hk hu hx hfin
  rw [exec_of_unit (κ := .pll) (.process k x) hk, pllConfigured_true hu, pllProcessAnswer_of_not_finite hx hfin]
  rfl

/-! ## The lock counter (R227) -/

/-- A sample moves the lock counter up by at most one. -/
theorem pllLockCount_le_succ (u : Pll) (pilot' : F) : (pllLockCount u pilot').toNat ≤ u.lockCnt.toNat + 1 := by
  unfold pllLockCount
  split
  next => exact (Nat.mod_le _ _).trans (Nat.min_le_left _ _)
  next => exact Nat.zero_le _

/-- Whatever the sample, PLL.PROCESS on a configured unit answers, and the unit stays as it was or takes the sample. -/
theorem exec_pllProcess_cases {k : BitVec 4} {s : State} {u : Pll} (x : F) (hk : s.pll[k.toNat]? = some u)
    (hu : u.cfgValid = true) :
    ∃ t v, exec (.pllProcess k x) s = .next t ∧ t.pll[k.toNat]? = some v ∧ (v = u ∨ v = processed s.cfg.pb u x) := by
  have hlt : k.toNat < s.pll.length := (List.getElem?_eq_some_iff.1 hk).1
  rw [exec_of_unit (κ := .pll) (.process k x) hk, pllConfigured_true hu]
  by_cases hx : finF x
  · by_cases hfin : (loopStep u x).finite
    · rw [pllProcessAnswer_of_finite hx hfin]
      exact ⟨_, _, rfl, List.getElem?_set_self hlt, .inr rfl⟩
    · rw [pllProcessAnswer_of_not_finite hx hfin]
      exact ⟨_, u, rfl, hk, .inl rfl⟩
  · rw [pllProcessAnswer_of_not_finF hx]
    exact ⟨_, u, rfl, hk, .inl rfl⟩

/-- A sample keeps a configured unit configured with its lock threshold, and moves its lock counter up by at most one. -/
theorem exec_pllProcess_lockCnt {k : BitVec 4} {s : State} {u : Pll} (x : F) (hk : s.pll[k.toNat]? = some u)
    (hu : u.cfgValid = true) :
    ∃ t v, exec (.pllProcess k x) s = .next t ∧ t.pll[k.toNat]? = some v ∧ v.cfgValid = true ∧ v.lockDelay = u.lockDelay ∧
      v.lockCnt.toNat ≤ u.lockCnt.toNat + 1 := by
  obtain ⟨t, v, hexec, ht, rfl | rfl⟩ := exec_pllProcess_cases x hk hu
  · exact ⟨t, v, hexec, ht, hu, rfl, Nat.le_succ _⟩
  · exact ⟨t, _, hexec, ht, hu, rfl, pllLockCount_le_succ u (loopStep u x).pilot⟩

/-- A list of samples moves the lock counter up by at most its length. -/
theorem processAll_lockCnt {k : BitVec 4} (xs : List F) {s : State} {u : Pll} (hk : s.pll[k.toNat]? = some u)
    (hu : u.cfgValid = true) :
    ∃ t v, processAll k xs s = .next t ∧ t.pll[k.toNat]? = some v ∧ v.cfgValid = true ∧ v.lockDelay = u.lockDelay ∧
      v.lockCnt.toNat ≤ u.lockCnt.toNat + xs.length := by
  induction xs generalizing s u with
  | nil => exact ⟨s, u, rfl, hk, hu, rfl, le_rfl⟩
  | cons x xs ih =>
    obtain ⟨t, v, hexec, ht, hv, hdelay, hcnt⟩ := exec_pllProcess_lockCnt x hk hu
    obtain ⟨t', v', hall, ht', hv', hdelay', hcnt'⟩ := ih ht hv
    refine ⟨t', v', ?_, ht', hv', hdelay'.trans hdelay, ?_⟩
    · rw [processAll, hexec]
      exact hall
    · rw [List.length_cons]
      omega

/-- Settles O53: by induction on the samples, the counter stays below the threshold. -/
theorem lockNeedsLockDelaySamples : Obligations.LockNeedsLockDelaySamples := by
  unfold Obligations.LockNeedsLockDelaySamples
  intro s k u xs hk hu hzero hlength
  obtain ⟨t, v, hall, ht, hv, hdelay, hcnt⟩ := processAll_lockCnt xs hk hu
  rw [hzero, BitVec.toNat_zero, Nat.zero_add] at hcnt
  refine ⟨t, v, hall, ht, hdelay, hcnt, exec_pllLocked ht hv, fun hlocked => ?_⟩
  rw [hlocked, hdelay] at hcnt
  omega

end Sys2Proof.Proofs
end

section
/-!
PROOF. PLL.CONFIGURE (R211 to R219): the check of the operands and the lock delay are those of R212 and R217 in rationals, and each
derived register is the rounding of its exact value.
-/

namespace Sys2Proof.Proofs

open Sys2Proof.Machine Sys2Proof.Claims

/-! ## The operands (R117, R212, R217) -/

/-- The number of units in 1, as a rational. -/
theorem cfOne_cast : (cfOne : ℚ) = 2 ^ 1074 := by
  rw [cfOne, Nat.cast_pow, Nat.cast_ofNat]

theorem cfOne_cast_pos : (0 : ℚ) < cfOne := by
  exact_mod_cast cfOne_pos

theorem val64_eq_div_cfOne (c : CF) : val64 c = (cfScaled c : ℚ) / cfOne := by
  rw [val64_eq_cfScaled, cfOne_cast]

theorem val64_nonneg_iff (c : CF) : 0 ≤ val64 c ↔ 0 ≤ cfScaled c := by
  rw [val64_eq_div_cfOne, le_div_iff₀ cfOne_cast_pos, zero_mul, Int.cast_nonneg_iff]

/-- The pilot period of the machine is that of R217. -/
theorem periodOf_eq {f : ℤ} (hf : 0 < f) : periodOf (f / cfOne) = pilotPeriod f := by
  have hcast : (f : ℚ) = f.toNat := by exact_mod_cast (Int.toNat_of_nonneg hf.le).symm
  have hnonneg : 0 ≤ rha cfOne f.toNat := by
    rw [rha, if_pos (Int.natCast_nonneg _)]
    positivity
  rw [periodOf, one_div_div, hcast, ← Int.cast_natCast cfOne, rhaQ_div _ (by omega), pilotPeriod, Int.toNat_of_nonneg hnonneg]

theorem ceil_div_eq (n : ℤ) (d : ℕ) : ⌈(n : ℚ) / d⌉ = ceilDiv n d := Rat.ceil_intCast_div_natCast n d

theorem ceilDiv_nonneg {n : ℤ} (hn : 0 ≤ n) (d : ℕ) : 0 ≤ ceilDiv n d := by
  rw [← ceil_div_eq]
  positivity

/-- The lock delay of the machine is that of R217. -/
theorem lockDelayQ_eq {f b : ℤ} (hf : 0 < f) (hb : 0 < b) (hperiod : 0 < pilotPeriod f) :
    lockDelayQ (f / cfOne) (b / cfOne) = lockDelayOf f b := by
  have hbt : 0 < b.toNat * pilotPeriod f := Nat.mul_pos (by omega) hperiod
  have hcast : (b : ℚ) = b.toNat := by exact_mod_cast (Int.toNat_of_nonneg hb.le).symm
  have hquotient : 20 / (b / cfOne * (pilotPeriod f : ℤ)) =
      ((Config.pllKlock * cfOne : ℤ) : ℚ) / (b.toNat * pilotPeriod f : ℕ) := by
    rw [hcast, Config.pllKlock]
    push_cast
    rw [div_mul_eq_mul_div, div_div_eq_mul_div]
  have hpos : 0 ≤ ceilDiv (Config.pllKlock * cfOne) (b.toNat * pilotPeriod f) :=
    ceilDiv_nonneg (Int.mul_nonneg (Int.natCast_nonneg _) (Int.natCast_nonneg _)) _
  rw [lockDelayQ, periodOf_eq hf, hquotient, ceil_div_eq, lockDelayOf, Nat.cast_mul, Int.toNat_of_nonneg hpos]

/-- The lock delay of operands in the range of R212. -/
theorem lockDelayQ_val64 {freq bw : CF} (hb : 0 < cfScaled bw) (hmin : 0 < cfScaled freq - cfScaled bw)
    (hmax : 2 * (cfScaled freq + cfScaled bw) < cfOne) :
    lockDelayQ (val64 freq) (val64 bw) = lockDelayOf (cfScaled freq) (cfScaled bw) := by
  have hperiod := two_le_pilotPeriod (f := cfScaled freq) (by omega) (by omega)
  rw [val64_eq_div_cfOne, val64_eq_div_cfOne, lockDelayQ_eq (by omega) hb (by omega)]

theorem val64_sub_pos_iff (c d : CF) : 0 < val64 c - val64 d ↔ 0 < cfScaled c - cfScaled d := by
  rw [val64_eq_div_cfOne, val64_eq_div_cfOne, ← sub_div, div_pos_iff_of_pos_right cfOne_cast_pos, ← Int.cast_sub,
    Int.cast_pos]

theorem val64_add_lt_half_iff (c d : CF) : val64 c + val64 d < 1 / 2 ↔ 2 * (cfScaled c + cfScaled d) < cfOne := by
  rw [val64_eq_div_cfOne, val64_eq_div_cfOne, ← add_div, div_lt_div_iff₀ cfOne_cast_pos two_pos, one_mul, mul_comm]
  exact_mod_cast Iff.rfl

/-- The check of the machine is that of R212. -/
theorem configureValid_iff (freq bw minsig : CF) : configureValid freq bw minsig = true ↔ configureLegal freq bw minsig := by
  have hdelay (hb : 0 < cfScaled bw) (hmin : 0 < cfScaled freq - cfScaled bw)
      (hmax : 2 * (cfScaled freq + cfScaled bw) < cfOne) :
      lockDelayOf (cfScaled freq) (cfScaled bw) ≤ 2 ^ 32 - 1 ↔ lockDelayQ (val64 freq) (val64 bw) ≤ 2 ^ 32 - 1 := by
    rw [lockDelayQ_val64 hb hmin hmax]
    omega
  simp only [configureValid, configureLegal, Bool.and_eq_true, decide_eq_true_eq, fin64_iff, val64_pos_iff,
    val64_sub_pos_iff, val64_add_lt_half_iff, val64_nonneg_iff, and_assoc]
  constructor
  · rintro ⟨hf, hbw, hms, hb, hmin, hmax, hsig, hle⟩
    exact ⟨hf, hbw, hms, hb, hmin, hmax, hsig, (hdelay hb hmin hmax).1 hle⟩
  · rintro ⟨hf, hbw, hms, hb, hmin, hmax, hsig, hle⟩
    exact ⟨hf, hbw, hms, hb, hmin, hmax, hsig, (hdelay hb hmin hmax).2 hle⟩

/-! ## The derived registers (R213 to R216) -/

/-- A rounding of integers is that of any real equal to their quotient. -/
theorem rndF_roundsTo {r : ℚ} {n : ℤ} {d : ℕ} (hd : 0 < d) (h : (n : ℚ) / d = r) : RoundsTo r (rndF n d) :=
  h ▸ roundingIsNearestEven n d hd

theorem rndCf_sub_roundsTo (c d : CF) : RoundsTo (val64 c - val64 d) (rndCf (cfScaled c - cfScaled d)) :=
  rndF_roundsTo cfOne_pos (by rw [val64_eq_div_cfOne, val64_eq_div_cfOne, ← sub_div, Int.cast_sub])

theorem rndCf_add_roundsTo (c d : CF) : RoundsTo (val64 c + val64 d) (rndCf (cfScaled c + cfScaled d)) :=
  rndF_roundsTo cfOne_pos (by rw [val64_eq_div_cfOne, val64_eq_div_cfOne, ← add_div, Int.cast_add])

theorem loopB0_roundsTo (c : CF) : RoundsTo (62 / 100 * val64 c) (loopB0 (cfScaled c)) := by
  refine rndF_roundsTo (Nat.mul_pos (by decide) cfOne_pos) ?_
  rw [val64_eq_div_cfOne, Config.pllKb0]
  push_cast
  rw [div_mul_div_comm]

theorem loopB1_roundsTo (c : CF) :
    RoundsTo (-(62 / 100) * val64 c * (1 - 7245 / 10000 * val64 c)) (loopB1 (cfScaled c)) := by
  have hone := cfOne_pos
  have hone' := cfOne_cast_pos.ne'
  refine rndF_roundsTo (Nat.mul_pos (Nat.mul_pos (by decide) hone) (Nat.mul_pos (by decide) hone)) ?_
  rw [val64_eq_div_cfOne, Config.pllKb0, Config.pllKz]
  push_cast
  generalize (cfOne : ℚ) = one at hone'
  generalize (cfScaled c : ℚ) = b
  field_simp

theorem ampCoefficient_roundsTo (c : CF) : RoundsTo (4 * val64 c) (ampCoefficient (cfScaled c)) := by
  refine rndF_roundsTo cfOne_pos ?_
  rw [val64_eq_div_cfOne, Config.pllKamp]
  push_cast
  rw [mul_div_assoc]

/-- The lock delay of legal operands fits its register (R212, R217). -/
theorem lockDelay_toNat {freq bw minsig : CF} (h : configureValid freq bw minsig = true) :
    ((BitVec.ofNat 32 (lockDelayOf (cfScaled freq) (cfScaled bw))).toNat : ℤ) = lockDelayQ (val64 freq) (val64 bw) := by
  obtain ⟨-, -, -, hb, hmin, hmax, -, hdelay⟩ := configureValid_true h
  rw [lockDelayQ_val64 hb hmin hmax, BitVec.toNat_ofNat, Nat.mod_eq_of_lt (by omega)]

/-! ## The command (R211, R219) -/

/-- PLL.CONFIGURE with legal operands (R211). -/
theorem exec_pllConfigure_of_valid {k : BitVec 4} {even : Bool} {var : BitVec 2} {freq bw minsig : CF} {s : State} {u : Pll}
    {v : Variant} (hk : s.pll[k.toNat]? = some u) (hv : variantOfCode var = some v)
    (h : configureValid freq bw minsig = true) :
    exec (.pllConfigure k even var freq bw minsig) s = .next { s with
      pll := s.pll.set k.toNat (pllConfigured0 u v even freq bw minsig), response := [0x00000000#32] } := by
  have hanswer : pllConfigureAnswer s.cfg.pb k even var freq bw minsig u =
      .done (pllConfigured0 u v even freq bw minsig) Flags.none [] := by
    rw [pllConfigureAnswer, hv]
    exact if_pos h
  rw [exec_of_unit (κ := .pll) (.configure k even var freq bw minsig) hk, hanswer, ← statusWord_noResult]
  rfl

/-- The two computed entries of the output vector at phase zero: no sine and the full cosine of the double angle (R218, R221). -/
theorem pllProject_stereo_start :
    pllProject .stereo fZero fOne 0#64 = .stereo 0x00000000#32 0x3F800000#32 0x00000000#32 0x3F800000#32 := by
  decide +kernel

/-- Settles O46. -/
theorem configureStartsLoop : Obligations.ConfigureStartsLoop := by
  unfold Obligations.ConfigureStartsLoop
  intro s k even var freq bw minsig u v hk hvar hlegal
  have hvalid := (configureValid_iff freq bw minsig).2 hlegal
  have hcode : variantOfCode var = some v := by
    simp only [List.mem_cons, Prod.mk.injEq, List.not_mem_nil, or_false] at hvar
    obtain ⟨rfl, rfl⟩ | ⟨rfl, rfl⟩ | ⟨rfl, rfl⟩ := hvar <;> rfl
  refine ⟨pllConfigured0 u v even freq bw minsig, exec_pllConfigure_of_valid hk hcode hvalid, rfl, rfl, rfl,
    rndCf_roundsTo freq, rndCf_sub_roundsTo freq bw, rndCf_add_roundsTo freq bw, rndCf_roundsTo minsig, loopB0_roundsTo bw,
    loopB1_roundsTo bw, ampCoefficient_roundsTo bw, rfl, rfl, rfl, rfl, lockDelay_toNat hvalid, rfl, rfl, rfl, rfl, rfl, rfl,
    rfl, rfl, rfl, rfl, rfl, rfl, ?_⟩
  cases v with
  | simple => rfl
  | stereo => exact pllProject_stereo_start
  | rds => rfl

/-- A variant code other than 3 names a variant (R84). -/
theorem variantOfCode_isSome : ∀ var : BitVec 2, var ≠ 3#2 → (variantOfCode var).isSome = true := by
  decide

/-- Settles O47. -/
theorem configureRejects : Obligations.ConfigureRejects := by
  unfold Obligations.ConfigureRejects
  intro s k even var freq bw minsig u hk hvar hlegal
  obtain ⟨v, hcode⟩ := Option.isSome_iff_exists.1 (variantOfCode_isSome var hvar)
  have hanswer : pllConfigureAnswer s.cfg.pb k even var freq bw minsig u = .invalid (pllUnspecified s.cfg.pb k u) := by
    rw [pllConfigureAnswer, hcode]
    exact if_neg (mt (configureValid_iff freq bw minsig).1 hlegal)
  refine ⟨pllUnspecified s.cfg.pb k u, rfl, ?_⟩
  rw [exec_of_unit (κ := .pll) (.configure k even var freq bw minsig) hk, hanswer]
  rfl

end Sys2Proof.Proofs
end

section
/-!
PROOF. The oscillator pairs (R120, R213): the enclosures of the sine and the cosine of the step angle are so narrow that either
rounding of their ends is within the tolerance. Near 1, where half a unit in the last place is the whole tolerance, the rounding is
no farther from the real than 1 itself.
-/

namespace Sys2Proof.Proofs

open Sys2Proof.Machine Sys2Proof.Claims

/-! ## The rounding of an enclosed real (R112, R120) -/

/-- Below the overflow threshold a rounding is finite and no value is nearer. -/
theorem rndF_nearest {m : ℤ} {d : ℕ} (hd : 0 < d) (hsize : |(m : ℚ) / d| < 2 ^ 128 - 2 ^ 103) :
    finF (rndF m d) ∧ ∀ b, finF b → |(m : ℚ) / d - valF (rndF m d)| ≤ |(m : ℚ) / d - valF b| := by
  have h := roundingIsNearestEven m d hd
  by_cases hzero : (m : ℚ) / d = 0
  · rw [hzero, roundsTo_zero_iff] at h
    have hval : valF (rndF m d) = 0 := h ▸ valF_fZero
    refine ⟨h ▸ (finF_iff _).2 fIsFinite_fZero, fun b _ => ?_⟩
    rw [hzero, hval, sub_zero, abs_zero]
    exact abs_nonneg _
  · obtain ⟨hfin, -, hnear, -⟩ := (roundsTo_iff_of_finite hzero hsize _).1 h
    exact ⟨hfin, hnear⟩

/-- The rounding of an enclosed real is that of one of the ends. -/
theorem rndEncl_cases (e : Encl) : ∃ m : ℤ, (m = e.lo ∨ m = e.hi) ∧ rndEncl e = rndF m enclOne := by
  unfold rndEncl decideRounding
  split_ifs
  · exact ⟨e.lo, .inl rfl, rfl⟩
  · exact ⟨e.hi, .inr rfl, rfl⟩
  · exact ⟨e.lo, .inl rfl, rfl⟩

/-- The rounding of an enclosed real of at most 8 is that of a number `y` next to it: it has the error of a rounding of `y`, and
no value is nearer to `y`. -/
theorem rndEncl_near {e : Encl} {x : ℝ} (h : EnclNear e x (2 ^ 20)) (hx : |x| ≤ 8) :
    ∃ y : ℚ, |(y : ℝ) - x| ≤ 1 / 2 ^ 236 ∧ |((valF (rndEncl e) : ℚ) : ℝ) - y| ≤ |(y : ℝ)| / 2 ^ 24 + 1 / 2 ^ 150 ∧
      ∀ b, finF b → |((valF (rndEncl e) : ℚ) : ℝ) - y| ≤ |((valF b : ℚ) : ℝ) - y| := by
  obtain ⟨m, hm, hround⟩ := rndEncl_cases e
  have hone := enclOne_pos
  have hone' : 0 < enclOne := by exact_mod_cast hone
  have hend : |(m : ℝ) - x * enclOne| ≤ 2 ^ 20 := by
    obtain rfl | rfl := hm
    · exact h.lo
    · exact h.hi
  have hdist : |(m : ℝ) / enclOne - x| ≤ 1 / 2 ^ 236 := by
    rw [← mul_le_mul_iff_left₀ hone, ← abs_of_pos hone, ← abs_mul, abs_of_pos hone, sub_mul, div_mul_cancel₀ _ hone.ne']
    refine hend.trans_eq ?_
    rw [enclOne_eq]
    norm_num
  have hsize : |(m : ℚ) / enclOne| < 2 ^ 128 - 2 ^ 103 := by
    have htri := abs_sub_abs_le_abs_sub ((m : ℝ) / enclOne) x
    have hreal : |(m : ℝ) / enclOne| < 2 ^ 128 - 2 ^ 103 := by linarith
    exact_mod_cast hreal
  obtain ⟨hfin, hnear⟩ := rndF_nearest hone' hsize
  have hcast : (((m : ℚ) / enclOne : ℚ) : ℝ) = (m : ℝ) / enclOne := by
    rw [Rat.cast_div, Rat.cast_intCast, Rat.cast_natCast]
  refine ⟨(m : ℚ) / enclOne, hcast ▸ hdist, ?_, fun b hb => ?_⟩
  · rw [hround, hcast]
    exact rndF_error m hone' ((finF_iff _).1 hfin)
  · have hle := hnear b hb
    rw [abs_sub_comm, abs_sub_comm _ (valF b)] at hle
    rw [hround]
    exact_mod_cast hle

/-- The rounding of an enclosed real has an error of one part in 2^24. -/
theorem rndEncl_error {e : Encl} {x : ℝ} (h : EnclNear e x (2 ^ 20)) (hx : |x| ≤ 8) :
    |((valF (rndEncl e) : ℚ) : ℝ) - x| ≤ |x| / 2 ^ 24 + 1 / 2 ^ 149 := by
  obtain ⟨y, hy, herror, -⟩ := rndEncl_near h hx
  have htri := abs_sub_le ((valF (rndEncl e) : ℚ) : ℝ) y x
  have hsize := abs_sub_abs_le_abs_sub (y : ℝ) x
  linarith

/-- No value is nearer to an enclosed real than its rounding, but for the width of the enclosure. -/
theorem rndEncl_nearest {e : Encl} {x : ℝ} (h : EnclNear e x (2 ^ 20)) (hx : |x| ≤ 8) {b : F} (hb : finF b) :
    |((valF (rndEncl e) : ℚ) : ℝ) - x| ≤ |((valF b : ℚ) : ℝ) - x| + 1 / 2 ^ 235 := by
  obtain ⟨y, hy, -, hnear⟩ := rndEncl_near h hx
  have htri := abs_sub_le ((valF (rndEncl e) : ℚ) : ℝ) y x
  have hback := abs_sub_le ((valF b : ℚ) : ℝ) x y
  rw [abs_sub_comm x] at hback
  linarith [hnear b hb]

theorem valF_fOne : valF fOne = 1 := by
  rw [valF_eq_fScaled, fScaled_fOne]
  norm_num

/-- The rounding of an enclosed sine or cosine: next to 1 or -1 that value is a nearer one than the tolerance. -/
theorem rndEncl_unit {e : Encl} {x : ℝ} (h : EnclNear e x (2 ^ 20)) (hx : |x| ≤ 1) :
    |((valF (rndEncl e) : ℚ) : ℝ) - x| ≤ 1 / 2 ^ 24 := by
  have hx8 : |x| ≤ 8 := hx.trans (by norm_num)
  obtain hbelow | hnear := le_or_gt |x| (1 - 1 / 2 ^ 100)
  · refine (rndEncl_error h hx8).trans ?_
    linarith
  · have hone : ∃ b, finF b ∧ |((valF b : ℚ) : ℝ) - x| ≤ 1 / 2 ^ 100 := by
      obtain ⟨habs, -⟩ | ⟨habs, -⟩ := abs_cases x <;> rw [habs] at hx hnear
      · refine ⟨fOne, (finF_iff _).2 fIsFinite_fOne, ?_⟩
        rw [valF_fOne, Rat.cast_one, abs_of_nonneg (by linarith)]
        linarith
      · refine ⟨fneg fOne, finF_fneg_fOne, ?_⟩
        rw [valF_fneg, valF_fOne, Rat.cast_neg, Rat.cast_one, abs_of_nonpos (by linarith)]
        linarith
    obtain ⟨b, hb, hdist⟩ := hone
    refine (rndEncl_nearest h hx8 hb).trans ?_
    linarith

/-! ## The pairs (R213) -/

theorem enclPi_near : EnclNear enclPi Real.pi 1 := by
  have hlo := enclPi_lo_le
  have hhi := le_enclPi_hi
  have hsucc : (enclPi.hi : ℝ) = enclPi.lo + 1 := by exact_mod_cast congrArg (Int.cast (R := ℝ)) enclPi_hi
  exact ⟨abs_le.2 ⟨by linarith, by linarith⟩, abs_le.2 ⟨by linarith, by linarith⟩⟩

/-- The step angle of a frequency in turns of `2^149` units. -/
theorem stepAngle_eq (a : F) : 2 * Real.pi * ((valF a : ℚ) : ℝ) = 2 * Real.pi * fScaled a / (2 ^ 149 : ℕ) := by
  rw [valF_eq_fScaled, Rat.cast_div, Rat.cast_intCast, mul_div_assoc]
  norm_num

theorem cosTurn_stepAngle_near (a : F) :
    EnclNear (cosTurn (fScaled a) (2 ^ 149)) (Real.cos (2 * Real.pi * ((valF a : ℚ) : ℝ))) 2048 :=
  stepAngle_eq a ▸ cosTurn_near (fScaled a) (Nat.two_pow_pos 149)

theorem sinTurn_stepAngle_near (a : F) :
    EnclNear (sinTurn (fScaled a) (2 ^ 149)) (Real.sin (2 * Real.pi * ((valF a : ℚ) : ℝ))) 2048 :=
  stepAngle_eq a ▸ sinTurn_near (fScaled a) (Nat.two_pow_pos 149)

theorem abs_twoPi_le : |2 * Real.pi| ≤ 7 := by
  rw [abs_of_pos Real.two_pi_pos]
  linarith [Real.pi_lt_d2]

/-- The product with 2π of an enclosed sine or cosine. -/
theorem enclMul_twoPi_near {e : Encl} {x : ℝ} (h : EnclNear e x 2048) (hx : |x| ≤ 1) :
    EnclNear (enclMul (enclScale enclPi 2) e) (2 * Real.pi * x) (2 ^ 20) := by
  have hturn := enclScale_near enclPi_near 2
  rw [Nat.cast_ofNat, mul_comm Real.pi 2] at hturn
  exact (enclMul_near hturn h abs_twoPi_le hx (by rw [enclOne_eq]; norm_num)).mono (by norm_num)

/-- The rounding of an enclosed derivative of a sine or cosine. -/
theorem rndEncl_derivative {e : Encl} {x : ℝ} (h : EnclNear e x (2 ^ 20)) (hx : |x| ≤ 7) :
    |((valF (rndEncl e) : ℚ) : ℝ) - x| ≤ 1 / 2 ^ 21 := by
  refine (rndEncl_error h (by linarith)).trans ?_
  linarith

theorem abs_twoPi_mul_le {x : ℝ} (hx : |x| ≤ 1) : |2 * Real.pi * x| ≤ 7 := by
  rw [abs_mul]
  exact (mul_le_of_le_one_right (abs_nonneg _) hx).trans abs_twoPi_le

/-- Settles O55. -/
theorem oscillatorPairIsAccurate : Obligations.OscillatorPairIsAccurate := by
  unfold Obligations.OscillatorPairIsAccurate
  refine ⟨fun a _ _ _ => ?_, by decide +kernel, by decide +kernel, by decide +kernel, by decide +kernel⟩
  have hcos := cosTurn_stepAngle_near a
  have hsin := sinTurn_stepAngle_near a
  dsimp only
  generalize 2 * Real.pi * ((valF a : ℚ) : ℝ) = w at *
  have hcos1 := Real.abs_cos_le_one w
  have hsin1 := Real.abs_sin_le_one w
  exact ⟨rndEncl_unit (hcos.mono (by norm_num)) hcos1, rndEncl_unit (hsin.mono (by norm_num)) hsin1,
    rndEncl_derivative (enclNeg_near (enclMul_twoPi_near hsin hsin1)) ((abs_neg _).trans_le (abs_twoPi_mul_le hsin1)),
    rndEncl_derivative (enclMul_twoPi_near hcos hcos1) (abs_twoPi_mul_le hcos1)⟩

end Sys2Proof.Proofs
end

section
/-!
PROOF. The four CORE commands (R260 to R263): a response to the state as it is, or to the reset state of every unit and of
`ERRFLAGS`; and the parameter word of CORE.ID as the number whose base 2^4 and 2^8 digits are the parameters.
-/

namespace Sys2Proof.Proofs

open Sys2Proof.Machine Sys2Proof.Claims

/-! ## The commands and their responses -/

theorem exec_coreNop (s : State) : exec .coreNop s = .next (s.respond Flags.none []) := rfl

theorem exec_coreReset (s : State) : exec .coreReset s = .next (s.resetUnits.respond Flags.none []) := rfl

theorem exec_coreId (s : State) : exec .coreId s = .next (s.respond Flags.none [Config.idWord, idParams s.cfg]) := rfl

theorem exec_coreErr (s : State) : exec .coreErr s = .next (s.respond Flags.none [s.errFlags]) := rfl

/-- A response without flags changes nothing but the response register (R80, R86). -/
theorem respond_eq_withResponse (s : State) (ws : List Word) {w : Word} (hw : statusWord 0 Flags.none ws.length = w) :
    s.respond Flags.none ws = { s with response := w :: ws } := by
  rw [State.respond, hw]

/-! ## The payload of a row (R89, R280) -/

/-- Step 4 of R87: under a header that matches a row, a payload of another length than the row's is illegal. -/
theorem decode_of_payload_length_ne {h : Word} {ws : List Word} {op : Opcode} (hrow : h &&& rowMask op = rowMatch op)
    (hvar : ¬(op = .pllConfigure ∧ argVar h = 3#2)) (hlen : ws.length ≠ op.npay) :
    decode ⟨h, ws⟩ = .illegal .payloadCount := by
  obtain ⟨hl, hzero⟩ := matchesRow_iff.1 hrow
  have ha : assemble op h ws = none :=
    Option.eq_none_iff_forall_ne_some.2 fun _ ha => hlen (length_of_assemble ha)
  simp only [decode, hl, hzero, ne_eq, not_true_eq_false, if_false, hvar, ha]

/-- Settles O13: the response is the status word without results, and the row of the zero header has no payload words. -/
theorem nopChangesNothing : Obligations.NopChangesNothing := by
  unfold Obligations.NopChangesNothing
  refine ⟨fun s => ?_, rfl, decode_encode (i := .coreNop) rfl, fun w ws => ⟨.payloadCount, ?_⟩⟩
  · rw [exec_coreNop, respond_eq_withResponse s [] statusWord_noResult]
  · exact decode_of_payload_length_ne (encode_matchesRow .coreNop) nofun (Nat.succ_ne_zero ws.length)

/-! ## Reset (R57) -/

/-- The registers of R57 in a unit that the reset has gone over. -/
theorem rsmp_of_mem_resetUnits {s : State} {u : Rsmp} (hu : u ∈ s.resetUnits.rsmp) :
    u.cfgValid = false ∧ u.phaseSteps = 0#16 ∧ u.ntaps = 0#16 ∧ u.wpos = 0#16 := by
  obtain ⟨r, -, rfl⟩ := List.mem_map.1 hu
  exact ⟨rfl, rfl, rfl, rfl⟩

theorem nco_of_mem_resetUnits {s : State} {u : Nco} (hu : u ∈ s.resetUnits.nco) : u = Nco.reset := by
  obtain ⟨n, -, rfl⟩ := List.mem_map.1 hu
  rfl

theorem pll_of_mem_resetUnits {s : State} {u : Pll} (hu : u ∈ s.resetUnits.pll) : u.cfgValid = false ∧ u.evq = [] := by
  obtain ⟨p, -, rfl⟩ := List.mem_map.1 hu
  exact ⟨rfl, rfl⟩

/-- Settles O14: CORE.RESET answers the reset units, which are as many as before. -/
theorem resetCommandResets : Obligations.ResetCommandResets := by
  unfold Obligations.ResetCommandResets
  intro s
  obtain ⟨-, hrsmp, hnco, hpll⟩ := sameCounts_resetUnits s
  exact ⟨_, exec_coreReset s, congrArg ([·]) statusWord_noResult, rfl, rfl, rfl, hrsmp, hnco, hpll,
    fun _ => rsmp_of_mem_resetUnits, fun _ => nco_of_mem_resetUnits, fun _ => pll_of_mem_resetUnits⟩

/-! ## The parameter word (R262) -/

theorem pb_lt (c : Config) : c.pb < 2 ^ 8 := by
  unfold Config.pb PhaseBits.bits
  split <;> omega

/-- Each field of the parameter word holds its parameter without loss when the parameters are legal. -/
theorem idParams_of_valid {c : Config} (hc : c.valid = true) :
    idParams c = BitVec.ofNat 32 (c.pb + 12 * 2 ^ 8 + (c.nRsmp - 1) * 2 ^ 16 + (c.nNco - 1) * 2 ^ 20 +
      (c.nPll - 1) * 2 ^ 24 + 1 * 2 ^ 28) := by
  obtain ⟨-, hrsmp, -, hnco, -, hpll⟩ := of_decide_eq_true hc
  have hpb := pb_lt c
  refine BitVec.eq_of_toNat_eq ?_
  simp only [idParams, Config.majorVersion, Config.tb, toNat_append_eq_add, BitVec.toNat_ofNat]
  omega

/-- Settles O15: the two results of CORE.ID are the identity word and the parameter word. -/
theorem idAnswersParameters : Obligations.IdAnswersParameters := by
  unfold Obligations.IdAnswersParameters
  refine ⟨fun s hc => ?_, by decide⟩
  rw [exec_coreId, respond_eq_withResponse s [_, _] statusWord_twoResults, idParams_of_valid hc, Config.idWord]

/-! ## The error register (R263) -/

/-- Settles O16: the register is the one result, and a response leaves it as it is. -/
theorem errReadsFlags : Obligations.ErrReadsFlags := by
  unfold Obligations.ErrReadsFlags
  intro s
  rw [exec_coreErr, respond_eq_withResponse s [_] statusWord_oneResult]

end Sys2Proof.Proofs
end

section
/-!
PROOF. The command port with no command (R57, R274, R288, R300, R301), and what raises BadInstance, NotConfigured, BadOperand
and BadIndex (R275 to R277, R281): an error changes its sticky bit and the response (R272), so each statement is about the unit
that is not there or about the answer of the one that is.
-/

namespace Sys2Proof.Proofs

open Sys2Proof.Machine Sys2Proof.Claims

/-! ## Taking an error (R55, R86, R272) -/

/-- An error sets the bit of its code and answers its code, and changes nothing else. -/
theorem raise_eq (s : State) (e : ErrorCode) :
    s.raise e = { s with
      errFlags := s.errFlags ||| BitVec.ofNat 32 (2 ^ e.code), response := [BitVec.ofNat 32 e.code] } := by
  cases e <;> rfl

/-- The `CODE` field of the status word of a completed command is 0 (R86). -/
theorem statusWord_code (fl : Flags) (n : Nat) : (statusWord 0 fl n).toNat % 2 ^ 8 = 0 := by
  rw [statusWord, toNat_append_eq_add, Nat.mul_add_mod']
  rfl

/-- A command with an error code in its response has not completed. -/
theorem respond_response_code {s : State} {fl : Flags} {results : List Word} {w : Word} {ws : List Word}
    (h : (s.respond fl results).response = w :: ws) : w.toNat % 2 ^ 8 = 0 := by
  obtain ⟨rfl, -⟩ := List.cons.inj h
  exact statusWord_code fl _

/-! ## The port with no command (R70, R274, R288, R300) -/

theorem runCommand_of_illegal {p : Packet} {e : DecodeError} (h : decode p = .illegal e) (s : State) :
    runCommand p s = .next (s.raise .illegalCommand) := by
  unfold runCommand
  rw [h]

theorem step_of_idle {s : State} (h : s.input = []) : step s = .next s := by
  unfold step takeEvent
  rw [h]

theorem step_of_hardwareReset {s : State} {rest : List PortEvent} (h : s.input = .hardwareReset :: rest) :
    step s = .next (hardwareReset { s with input := rest }) := by
  unfold step takeEvent
  rw [h]

/-- Settles O7: the packet is taken off the port whole and raises IllegalCommand. -/
theorem illegalPacketRaises : Obligations.IllegalPacketRaises := by
  unfold Obligations.IllegalPacketRaises
  intro s p rest e hinput hdecode
  rw [step_of_command hinput, runCommand_of_illegal hdecode, raise_eq]
  rfl

/-- CORE.RESET has the effect of the reset input, with a response (R261, R300). -/
theorem exec_coreReset_eq_hardwareReset (s : State) :
    exec .coreReset s = .next { hardwareReset s with response := [0x00000000#32] } := by
  rw [exec_coreReset, respond_eq_withResponse _ [] statusWord_noResult]
  rfl

/-- Settles O8: both resets are `State.resetUnits`, which leaves each unit at the values of R57. -/
theorem idlePortAndResetInput : Obligations.IdlePortAndResetInput := by
  unfold Obligations.IdlePortAndResetInput
  refine ⟨fun s => step_of_idle, fun s rest hinput => ?_⟩
  obtain ⟨-, hrsmp, hnco, hpll⟩ := sameCounts_resetUnits s
  exact ⟨_, step_of_hardwareReset hinput, rfl, rfl, rfl, rfl, hrsmp, hnco, hpll, fun _ => rsmp_of_mem_resetUnits,
    fun _ => nco_of_mem_resetUnits, fun _ => pll_of_mem_resetUnits, exec_coreReset_eq_hardwareReset _⟩

/-! ## Units that are not there (R275) -/

theorem units_length {s : State} (hs : s.CountsOk) (κ : Kind) : (units κ s).length = unitCount s.cfg κ := by
  cases κ with
  | rsmp => exact hs.rsmp
  | nco => exact hs.nco
  | pll => exact hs.pll

/-- Settles O19. -/
theorem missingUnitRaisesBadInstance : Obligations.MissingUnitRaisesBadInstance := by
  unfold Obligations.MissingUnitRaisesBadInstance
  intro i s kind n hs htarget hmissing
  obtain ⟨κ, k, f, hx, hc⟩ := unitCommand_of_target s.cfg htarget
  obtain ⟨rfl, rfl⟩ := Prod.mk.inj hx
  have hnone : (units kind s)[k.toNat]? = none := List.getElem?_eq_none (by rwa [units_length hs])
  rw [exec_of_unitCommand hc, onUnit_of_none f hnone, raise_eq]
  rfl

/-! ## Units that are not configured (R276) -/

/-- `CFG_VALID` of a unit. -/
def unitValid : (κ : Kind) → UnitOf κ → Bool
  | .rsmp, u => u.cfgValid
  | .nco, u => u.cfgValid
  | .pll, u => u.cfgValid

theorem cfgValidAt_eq (κ : Kind) (n : Nat) (s : State) : cfgValidAt (κ, n) s = (units κ s)[n]?.map (unitValid κ) := by
  cases κ <;> rfl

theorem cfgValidAt_eq_some {κ : Kind} {n : Nat} {s : State} {b : Bool} (h : cfgValidAt (κ, n) s = some b) :
    ∃ u, (units κ s)[n]? = some u ∧ unitValid κ u = b := by
  rwa [cfgValidAt_eq, Option.map_eq_some_iff] at h

theorem rsmpConfigured_false {u : Rsmp} (h : u.cfgValid = false) (a : Answer Rsmp) :
    rsmpConfigured u a = .error .notConfigured := if_neg (ne_true_of_eq_false h)

theorem ncoConfigured_false {u : Nco} (h : u.cfgValid = false) (a : Answer Nco) :
    ncoConfigured u a = .error .notConfigured := if_neg (ne_true_of_eq_false h)

theorem pllConfigured_false {u : Pll} (h : u.cfgValid = false) (a : Answer Pll) :
    pllConfigured u a = .error .notConfigured := if_neg (ne_true_of_eq_false h)

/-- Every command but the configuration commands checks `CFG_VALID` first (R273, R276). -/
theorem answer_of_unconfigured {c : Config} {κ : Kind} {i : Instr} {k : BitVec 4} {f : UnitOf κ → Answer (UnitOf κ)}
    {u : UnitOf κ} (hc : UnitCommand c κ i k f) (hi : ¬ isConfiguration i) (hu : unitValid κ u = false) :
    f u = .error .notConfigured := by
  cases hc with
  | create | setfreq | configure => exact absurd trivial hi
  | decimate | interpolate | resample | rdtap => exact rsmpConfigured_false hu _
  | nextphase | get | getiq | next | nextiq => exact ncoConfigured_false hu _
  | process | locked | pilotlevel | getout | evdrain => exact pllConfigured_false hu _

/-- A command that its unit answers with an error (R272). -/
theorem exec_of_error {κ : Kind} {i : Instr} {k : BitVec 4} {s : State} {f : UnitOf κ → Answer (UnitOf κ)} {u : UnitOf κ}
    {e : ErrorCode} (hc : UnitCommand s.cfg κ i k f) (hk : (units κ s)[k.toNat]? = some u) (hf : f u = .error e) :
    exec i s = .next { s with
      errFlags := s.errFlags ||| BitVec.ofNat 32 (2 ^ e.code), response := [BitVec.ofNat 32 e.code] } := by
  rw [exec_of_unit hc hk, hf, ← raise_eq]
  rfl

/-- Settles O20. -/
theorem unconfiguredUnitRaisesNotConfigured : Obligations.UnconfiguredUnitRaisesNotConfigured := by
  unfold Obligations.UnconfiguredUnitRaisesNotConfigured
  intro i s x htarget hinvalid hi
  obtain ⟨κ, k, f, rfl, hc⟩ := unitCommand_of_target s.cfg htarget
  obtain ⟨u, hk, hu⟩ := cfgValidAt_eq_some hinvalid
  exact exec_of_error hc hk (answer_of_unconfigured hc hi hu)

/-! ## Operands that no command takes (R149, R277) -/

/-- A configured unit takes no NaN distance (R149). -/
theorem rsmpData_of_nan {u : Rsmp} {d : F} (hu : u.cfgValid = true) (hd : fIsNaN d = true) (a : Answer Rsmp) :
    rsmpData u d a = .error .badOperand := by
  rw [rsmpData, rsmpConfigured_true hu, if_pos hd]

/-- Settles O21: the three data commands begin with the same check, and PLL.PROCESS with its own. -/
theorem unusableOperandRaisesBadOperand : Obligations.UnusableOperandRaisesBadOperand := by
  unfold Obligations.UnusableOperandRaisesBadOperand
  refine ⟨fun s k d re im cin hvalid hd => ?_, fun s k x hvalid hx => ?_⟩
  · obtain ⟨u, hk, hu⟩ := cfgValidAt_eq_some hvalid
    refine List.forall_mem_cons.2 ⟨?_, List.forall_mem_cons.2 ⟨?_, List.forall_mem_singleton.2 ?_⟩⟩
    · exact exec_of_error (.decimate k d re im) hk (rsmpData_of_nan hu hd _)
    · exact exec_of_error (.interpolate k d re im) hk (rsmpData_of_nan hu hd _)
    · exact exec_of_error (.resample k cin d re im) hk (rsmpData_of_nan hu hd _)
  · obtain ⟨u, hk, hu⟩ := cfgValidAt_eq_some hvalid
    exact exec_of_error (.process k x) hk ((pllConfigured_true hu _).trans (pllProcessAnswer_of_not_finF hx))

/-! ## RSMP.RDTAP (R158, R281) -/

theorem rsmpRdtapAnswer_of_lt {u : Rsmp} {p : BitVec 16} {j : Word} (hu : RsmpReady u) (hp : p.toNat < u.phaseSteps.toNat)
    (hj : j.toNat < u.ntaps.toNat) :
    rsmpRdtapAnswer p j u = .done u Flags.none [u.taps.getD (p.toNat * u.ntaps.toNat + j.toNat) 0#32] := by
  have hlength : u.taps.length = u.phaseSteps.toNat * u.ntaps.toNat := by
    simpa [Memory.wf] using hu.ok.taps_wf hu.valid
  have hindex : p.toNat * u.ntaps.toNat + j.toNat < u.taps.length := hlength ▸ bank_index_lt hp hj
  rw [rsmpRdtapAnswer, rsmpConfigured_true hu.valid, if_neg (not_or.2 ⟨hp.not_ge, hj.not_ge⟩),
    memRead_eq_getD hindex 0#32]

theorem rsmpRdtapAnswer_of_ge {u : Rsmp} {p : BitVec 16} {j : Word} (hu : u.cfgValid = true)
    (h : u.phaseSteps.toNat ≤ p.toNat ∨ u.ntaps.toNat ≤ j.toNat) : rsmpRdtapAnswer p j u = .error .badIndex := by
  rw [rsmpRdtapAnswer, rsmpConfigured_true hu, if_pos h]

/-- Settles O31: both indices in range make an index of the bank. -/
theorem rdtapReadsOrRaisesBadIndex : Obligations.RdtapReadsOrRaisesBadIndex := by
  unfold Obligations.RdtapReadsOrRaisesBadIndex
  intro s k p j u hk hvalid hok
  refine ⟨fun ⟨hp, hj⟩ => ?_, fun hout => exec_of_error (.rdtap k p j) hk (rsmpRdtapAnswer_of_ge hvalid hout)⟩
  rw [exec_of_unit (κ := .rsmp) (.rdtap k p j) hk, rsmpRdtapAnswer_of_lt ⟨hvalid, hok⟩ hp hj, ← statusWord_oneResult,
    settleAnswer, units, set_same hk]
  rfl

end Sys2Proof.Proofs
end

section
/-!
PROOF. Errors are precise (R272, R273, R282): only a configuration command answers InvalidConfiguration, which leaves its unit
with `CFG_VALID = 0`, and every other error leaves every unit as it was.
-/

namespace Sys2Proof.Proofs

open Sys2Proof.Machine Sys2Proof.Claims

/-! ## What the running commands answer (R149, R151, R225, R276) -/

/-- The answer does not fail a configuration: neither by its error code nor by an invalidated unit. -/
inductive KeepsConfigured {σ : Type} : Answer σ → Prop
  | done (u : σ) (fl : Flags) (ws : List Word) : KeepsConfigured (.done u fl ws)
  | error (e : ErrorCode) (he : e ≠ .invalidConfiguration) : KeepsConfigured (.error e)
  | stop (x : Fault) : KeepsConfigured (.stop x)

theorem keepsConfigured_rsmpConfigured {u : Rsmp} {a : Answer Rsmp} (h : KeepsConfigured a) :
    KeepsConfigured (rsmpConfigured u a) := by
  unfold rsmpConfigured
  split
  next => exact h
  next => exact .error _ nofun

theorem keepsConfigured_ncoConfigured {u : Nco} {a : Answer Nco} (h : KeepsConfigured a) :
    KeepsConfigured (ncoConfigured u a) := by
  unfold ncoConfigured
  split
  next => exact h
  next => exact .error _ nofun

theorem keepsConfigured_pllConfigured {u : Pll} {a : Answer Pll} (h : KeepsConfigured a) :
    KeepsConfigured (pllConfigured u a) := by
  unfold pllConfigured
  split
  next => exact h
  next => exact .error _ nofun

theorem keepsConfigured_rsmpData {u : Rsmp} {d : F} {a : Answer Rsmp} (h : KeepsConfigured a) :
    KeepsConfigured (rsmpData u d a) := by
  refine keepsConfigured_rsmpConfigured ?_
  split
  next => exact .error _ nofun
  next => exact h

theorem keepsConfigured_rsmpOutput (u : Rsmp) (d : F) (p : Nat) (b : Bool) : KeepsConfigured (rsmpOutput u d p b) := by
  unfold rsmpOutput
  split
  next => exact .done ..
  next => exact .stop _

theorem keepsConfigured_rsmpResampleOutput (u : Rsmp) (d : F) (b : Bool) :
    KeepsConfigured (rsmpResampleOutput u d b) := by
  unfold rsmpResampleOutput
  split
  next => exact .error _ nofun
  next => exact keepsConfigured_rsmpOutput ..

theorem keepsConfigured_decimate (d : F) (x : Cplx) (u : Rsmp) : KeepsConfigured (rsmpDecimateAnswer d x u) := by
  refine keepsConfigured_rsmpData ?_
  dsimp only
  split
  next => exact .stop _
  next =>
    split
    next => exact .done ..
    next =>
      split
      next => exact .error _ nofun
      next => exact keepsConfigured_rsmpOutput ..

theorem keepsConfigured_interpolate (d : F) (x : Cplx) (u : Rsmp) : KeepsConfigured (rsmpInterpolateAnswer d x u) := by
  refine keepsConfigured_rsmpData ?_
  dsimp only
  split
  next => exact .error _ nofun
  next =>
    split
    next => exact .stop _
    next => exact keepsConfigured_rsmpOutput ..

theorem keepsConfigured_resample (cin : Bool) (d : F) (x : Cplx) (u : Rsmp) :
    KeepsConfigured (rsmpResampleAnswer cin d x u) := by
  refine keepsConfigured_rsmpData ?_
  split
  next =>
    split
    next => exact .done ..
    next =>
      split
      next => exact .stop _
      next =>
        dsimp only
        split
        next => exact .done ..
        next => exact keepsConfigured_rsmpResampleOutput ..
  next => exact keepsConfigured_rsmpResampleOutput ..

theorem keepsConfigured_rdtap (p : BitVec 16) (j : Word) (u : Rsmp) : KeepsConfigured (rsmpRdtapAnswer p j u) := by
  refine keepsConfigured_rsmpConfigured ?_
  split
  next => exact .error _ nofun
  next =>
    split
    next => exact .done ..
    next => exact .stop _

theorem keepsConfigured_process (c : Config) (x : F) (u : Pll) : KeepsConfigured (pllProcessAnswer c x u) := by
  unfold pllProcessAnswer
  dsimp only
  split
  next => exact .error _ nofun
  next =>
    split
    next => exact .error _ nofun
    next =>
      split
      next => exact .error _ nofun
      next => exact .done ..

/-! ## What a failed configuration leaves (R147, R181, R219) -/

/-- The unit `v` is what a failed configuration leaves of `u`, as far as the rules say. -/
def Invalidated : (κ : Kind) → UnitOf κ → UnitOf κ → Prop
  | .rsmp, _, v => v.cfgValid = false
  | .nco, u, v => v = { u with cfgValid := false }
  | .pll, _, v => v.cfgValid = false

theorem unitValid_of_invalidated {κ : Kind} {u v : UnitOf κ} (h : Invalidated κ u v) : unitValid κ v = false := by
  cases κ with
  | rsmp => exact h
  | nco => exact congrArg Nco.cfgValid h
  | pll => exact h

/-- InvalidConfiguration is the answer of a configuration command alone, and comes with an invalidated unit (R273). -/
theorem unitCommand_answer {c : Config} {κ : Kind} {i : Instr} {k : BitVec 4} {f : UnitOf κ → Answer (UnitOf κ)}
    (hc : UnitCommand c κ i k f) (u : UnitOf κ) :
    KeepsConfigured (f u) ∨ isConfiguration i ∧ ∃ v, f u = .invalid v ∧ Invalidated κ u v := by
  cases hc with
  | create =>
    unfold rsmpCreateAnswer
    split
    next =>
      split
      next => exact .inl (.done ..)
      next => exact .inr ⟨trivial, _, rfl, rfl⟩
    next => exact .inr ⟨trivial, _, rfl, rfl⟩
  | setfreq =>
    unfold ncoSetfreqAnswer
    split
    next => exact .inl (.done ..)
    next => exact .inr ⟨trivial, _, rfl, rfl⟩
  | configure =>
    unfold pllConfigureAnswer
    split
    next => exact .inl (.error _ nofun)
    next =>
      split
      next => exact .inl (.done ..)
      next => exact .inr ⟨trivial, _, rfl, rfl⟩
  | decimate => exact .inl (keepsConfigured_decimate ..)
  | interpolate => exact .inl (keepsConfigured_interpolate ..)
  | resample => exact .inl (keepsConfigured_resample ..)
  | rdtap => exact .inl (keepsConfigured_rdtap ..)
  | nextphase | get | getiq | next | nextiq => exact .inl (keepsConfigured_ncoConfigured (.done ..))
  | process => exact .inl (keepsConfigured_pllConfigured (keepsConfigured_process ..))
  | locked | pilotlevel | getout | evdrain => exact .inl (keepsConfigured_pllConfigured (.done ..))

/-! ## Precise errors (R272, R282) -/

theorem target_of_unitCommand {c : Config} {κ : Kind} {i : Instr} {k : BitVec 4} {f : UnitOf κ → Answer (UnitOf κ)}
    (hc : UnitCommand c κ i k f) : target i = some (κ, k.toNat) := by
  cases hc <;> rfl

/-- The units of `t`, after the command `i` has raised `e` in the state `s`: the last two clauses of
`Obligations.ErrorsArePrecise`. -/
def UnitsAfterError (i : Instr) (e : ErrorCode) (s t : State) : Prop :=
  (e ≠ .invalidConfiguration → t.rsmp = s.rsmp ∧ t.nco = s.nco ∧ t.pll = s.pll) ∧
  (e = .invalidConfiguration → isConfiguration i ∧
    ∃ x, target i = some x ∧ cfgValidAt x t = some false ∧ (∀ y, y ≠ x → sameAt y s t) ∧
      (x.1 = .nco → ∃ u, s.nco[x.2]? = some u ∧ t.nco[x.2]? = some { u with cfgValid := false }))

theorem unitsAfterError_raise {i : Instr} {e : ErrorCode} (he : e ≠ .invalidConfiguration) (s : State) :
    UnitsAfterError i e s (s.raise e) :=
  ⟨fun _ => ⟨rfl, rfl, rfl⟩, fun h => absurd h he⟩

/-- A failed configuration writes the unit that it names, and no other. -/
theorem unitsAfterError_invalid {κ : Kind} {i : Instr} {k : BitVec 4} {s : State} {f : UnitOf κ → Answer (UnitOf κ)}
    {u v : UnitOf κ} (hc : UnitCommand s.cfg κ i k f) (hi : isConfiguration i) (hk : (units κ s)[k.toNat]? = some u)
    (hf : f u = .invalid v) (hv : Invalidated κ u v) :
    UnitsAfterError i .invalidConfiguration s
      ((withUnits κ s ((units κ s).set k.toNat v)).raise .invalidConfiguration) := by
  have hexec : onUnit κ k s f = .next ((withUnits κ s ((units κ s).set k.toNat v)).raise .invalidConfiguration) := by
    rw [onUnit_of_some f hk, hf]
    rfl
  have hwritten : ((units κ s).set k.toNat v)[k.toNat]? = some v :=
    List.getElem?_set_self (List.getElem?_eq_some_iff.1 hk).1
  obtain ⟨-, -, hothers⟩ := onUnit_frame hexec
  refine ⟨fun h => absurd rfl h, fun _ => ⟨hi, (κ, k.toNat), target_of_unitCommand hc, ?_, hothers, ?_⟩⟩
  · rw [cfgValidAt_eq, units_raise, units_withUnits, hwritten, Option.map_some, unitValid_of_invalidated hv]
  · rintro rfl
    exact ⟨u, hk, hwritten.trans (congrArg some hv)⟩

/-- What becomes of the machine when the answer fails no configuration. -/
theorem settleAnswer_of_keepsConfigured {κ : Kind} {k : BitVec 4} {s t : State} {a : Answer (UnitOf κ)}
    (ha : KeepsConfigured a) (h : settleAnswer κ k s a = .next t) :
    (∃ e, e ≠ .invalidConfiguration ∧ t = s.raise e) ∨
    ∃ (s' : State) (fl : Flags) (ws : List Word), t = s'.respond fl ws := by
  cases ha with
  | done u fl ws =>
    cases h
    exact .inr ⟨_, fl, ws, rfl⟩
  | error e he =>
    cases h
    exact .inl ⟨e, he, rfl⟩
  | stop x => cases h

/-- A command raises an error, with the sticky bits, the parameters and the port as before, or has completed. -/
theorem exec_error_or_completed {i : Instr} {s t : State} (h : exec i s = .next t) :
    (∃ (s' : State) (e : ErrorCode), t = s'.raise e ∧ s'.errFlags = s.errFlags ∧ s'.cfg = s.cfg ∧ s'.input = s.input ∧
      UnitsAfterError i e s t) ∨
    ∃ (s' : State) (fl : Flags) (ws : List Word), t = s'.respond fl ws := by
  obtain ⟨-, hi⟩ | ⟨ws, hi⟩ | ⟨κ, k, f, hc, hi⟩ := exec_cases i s <;> rw [hi] at h
  · cases h
    exact .inr ⟨_, _, _, rfl⟩
  · cases h
    exact .inr ⟨_, _, _, rfl⟩
  cases hk : (units κ s)[k.toNat]? with
  | none =>
    rw [onUnit_of_none f hk] at h
    cases h
    exact .inl ⟨s, .badInstance, rfl, rfl, rfl, rfl, unitsAfterError_raise (e := .badInstance) nofun s⟩
  | some u =>
    rw [onUnit_of_some f hk] at h
    obtain hkeeps | ⟨hconf, v, hf, hv⟩ := unitCommand_answer hc u
    · obtain ⟨e, he, rfl⟩ | hcompleted := settleAnswer_of_keepsConfigured hkeeps h
      · exact .inl ⟨s, e, rfl, rfl, rfl, rfl, unitsAfterError_raise he s⟩
      · exact .inr hcompleted
    · rw [hf] at h
      cases h
      exact .inl ⟨_, _, rfl, by simp, by simp, by simp, unitsAfterError_invalid hc hconf hk hf hv⟩

/-- Settles O18: a completed command has the code 0, and an error is raised over the units as they were or, by a configuration
command, over the invalidated one. -/
theorem errorsArePrecise : Obligations.ErrorsArePrecise := by
  unfold Obligations.ErrorsArePrecise
  intro i s t w ws h hresponse hcode
  obtain ⟨s', e, rfl, hflags, hcfg, hinput, hsame, hinvalid⟩ | ⟨s', fl, results, rfl⟩ := exec_error_or_completed h
  · rw [raise_eq] at hresponse
    obtain ⟨rfl, rfl⟩ := List.cons.inj hresponse
    refine ⟨e, rfl, rfl, ?_, hcfg, hinput, hsame, hinvalid⟩
    rw [raise_eq, ← hflags]
  · exact absurd (respond_response_code hresponse) hcode

end Sys2Proof.Proofs
end

section
/-!
PROOF. PhaseRange (R150, R151, R278): a distance of at least 2 stays at least 1 after a consumption, and the phase product of
such a distance reaches `PHASE_STEPS`, because no rounding falls below a value of the encoding that the exact number reaches.
-/

namespace Sys2Proof.Proofs

open Sys2Proof.Machine Sys2Proof.Claims

/-! ## Roundings from a value on (R112) -/

/-- A number of units that reaches a finite value rounds to no less than that value: the value would be nearer. -/
theorem fScaled_le_rndUnits {n d : Nat} {b : F} (hd : 0 < d) (hb : finF b) (h : fScaled b * d ≤ n) :
    fScaled b ≤ fScaled (rndUnits n d) := by
  have ha := toNat_rndUnits n d
  obtain hinf | hfin := (rndMag_le n d).eq_or_lt
  · have hpattern : rndUnits n d = 0x7F800000#32 := BitVec.eq_of_toNat_eq (ha.trans hinf)
    have hvalue : fScaled 0x7F800000#32 = 2 ^ 277 := fScaled_of_inf (by decide)
    rw [hpattern, hvalue]
    exact (fScaled_mem_Icc (not_nanF_of_finF hb)).2
  · obtain rfl | hn := Nat.eq_zero_or_pos n
    · rw [fScaled_rndUnits_natCast]
      have hnonpos : fScaled b ≤ 0 := nonpos_of_mul_nonpos_left h (by exact_mod_cast hd)
      omega
    · by_contra! hlt
      have hnear := (rndMag_nearest_value hn hd ha hfin b).1
      have hbelow : fScaled (rndUnits n d) * d < fScaled b * d := mul_lt_mul_of_pos_right hlt (by exact_mod_cast hd)
      rw [abs_of_nonneg (by omega), abs_of_nonneg (by omega)] at hnear
      omega

/-! ## Distances from 2 on (R150, R151) -/

/-- An infinity whose place in the order is not negative is the positive one. -/
theorem eq_posInf_of_nonneg {a : F} (hinf : fIsInf a = true) (h : 0 ≤ fScaled a) : a = 0x7F800000#32 := by
  obtain rfl | rfl := (infF_iff a).2 hinf
  · rfl
  · exact absurd h (by decide +kernel)

/-- The distance that a consumption leaves of one from 2 on is at least 1 (R151, R155). -/
theorem fScaled_fOne_le_fsub {d : F} (hd : fIsNaN d = false) (h : fScaled fTwo ≤ fScaled d) :
    fScaled fOne ≤ fScaled (fsub d fOne) := by
  rw [fScaled_fTwo] at h
  obtain hinf | hfin := inf_or_finite hd
  · rw [fsub, fadd_of_inf_left ((infF_iff d).2 hinf) finF_fneg_fOne, fScaled_fOne]
    omega
  · obtain ⟨n, hn⟩ := Int.eq_ofNat_of_zero_le (show 0 ≤ fScaled d + fScaled (fneg fOne) by
      rw [fScaled_fneg, fScaled_fOne]
      omega)
    have hreach : fScaled fOne * (1 : Nat) ≤ n := by
      rw [← hn, fScaled_fneg, fScaled_fOne]
      omega
    have hpos : (n : ℤ) ≠ 0 := by
      rw [fScaled_fOne] at hreach
      omega
    rw [fsub, fadd_of_finite ((finF_iff d).2 hfin) finF_fneg_fOne, hn, if_neg hpos]
    exact fScaled_le_rndUnits one_pos ((finF_iff fOne).2 fIsFinite_fOne) hreach

theorem fSign_itof (n : Nat) : fSign (itof n) = false := by
  have hnat : itof n = rndUnits (n * 2 ^ 149 : Nat) 1 := by
    rw [itof, rndF]
    push_cast
    rfl
  have := rndMag_le (n * 2 ^ 149) 1
  rw [fSign, BitVec.getLsbD, Nat.testBit_eq_false_of_lt (by rw [hnat, toNat_rndUnits]; omega)]

/-- The phase product of a distance from 1 on reaches `PHASE_STEPS` (R150). -/
theorem le_fScaled_fmul_itof {d : F} {n : Nat} (hd : fIsNaN d = false) (h : fScaled fOne ≤ fScaled d) (hpos : 0 < n)
    (hn : n < 2 ^ 24) : n * 2 ^ 149 ≤ fScaled (fmul d (itof n)) := by
  have hitof := fScaled_itof hn
  rw [fScaled_fOne] at h
  obtain hinf | hfin := inf_or_finite hd
  · obtain rfl := eq_posInf_of_nonneg hinf (by omega)
    have hne : valF (itof n) ≠ 0 := by
      rw [valF_eq_fScaled, hitof]
      positivity
    have hvalue : fScaled (fInf (fSign 0x7F800000#32 != false)) = 2 ^ 277 := by decide +kernel
    rw [fmul_of_inf ((infF_iff _).2 hinf) (not_nanF_of_finF (finF_itof hn)), if_neg hne, infOfSigns_eq, fSign_itof n, hvalue]
    omega
  · obtain ⟨m, hm⟩ := Int.eq_ofNat_of_zero_le (show 0 ≤ fScaled d by omega)
    have hproduct : fScaled d * fScaled (itof n) = (m * (n * 2 ^ 149) : Nat) := by
      rw [hm, hitof]
      push_cast
      rfl
    have hreach : fScaled (itof n) * (2 ^ 149 : Nat) ≤ (m * (n * 2 ^ 149) : Nat) := by
      rw [← hproduct, mul_comm (fScaled d)]
      exact mul_le_mul_of_nonneg_left (by exact_mod_cast h) (by rw [hitof]; positivity)
    have hm1 : 0 < m := by omega
    have hne : ((m * (n * 2 ^ 149) : Nat) : ℤ) ≠ 0 := by positivity
    rw [fmul_of_finite ((finF_iff d).2 hfin) (finF_itof hn), hproduct, if_neg hne, ← hitof]
    exact fScaled_le_rndUnits (by positivity) (finF_itof hn) hreach

/-- A distance from 1 on has no phase (R150, R151). -/
theorem phaseIndex_eq_none {u : Rsmp} {d : F} (hu : RsmpReady u) (hd : fIsNaN d = false) (h : fScaled fOne ≤ fScaled d) :
    phaseIndex u d = none := by
  have hsteps := (hu.ok.steps_le hu.valid).trans_lt (show Config.maxPhaseSteps < 2 ^ 24 by decide)
  have hprod := le_fScaled_fmul_itof hd h (hu.ok.steps_pos hu.valid) hsteps
  have hnotNegInf : fmul d (itof u.phaseSteps.toNat) ≠ fInf true := by
    intro hinf
    have hvalue : fScaled (fInf true) = -2 ^ 277 := by decide +kernel
    rw [hinf, hvalue] at hprod
    omega
  unfold phaseIndex
  dsimp only
  by_cases hinf : fmul d (itof u.phaseSteps.toNat) = fInf false
  · exact if_pos hinf
  · rw [if_neg hinf, if_neg hnotNegInf]
    refine if_pos ?_
    unfold floorF
    omega

/-! ## RSMP.INTERPOLATE (R155, R278) -/

theorem rsmpInterpolateAnswer_of_ge {u : Rsmp} {d : F} (hu : RsmpReady u) (hd : fIsNaN d = false)
    (h : fge d fTwo = true) (x : Cplx) : rsmpInterpolateAnswer d x u = .error .phaseRange := by
  obtain ⟨hnan, -, hle⟩ := (fge_iff d fTwo).1 h
  have hone : fge d fOne = true := (fge_iff d fOne).2 ⟨hnan, by rw [nanF_iff]; decide, by
    rw [fScaled_fTwo] at hle
    rw [fScaled_fOne]
    omega⟩
  rw [rsmpInterpolateAnswer, rsmpData_eq hu hd, hone]
  simp only [if_true, phaseIndex_eq_none hu (fIsNaN_fsub_fOne hd) (fScaled_fOne_le_fsub hd hle)]

/-- Settles O22: below 2 the command answers an output, which is more than the one word of an error. -/
theorem phaseRangeExactlyFromTwo : Obligations.PhaseRangeExactlyFromTwo := by
  unfold Obligations.PhaseRangeExactlyFromTwo
  intro s k d re im u hk hvalid hok hd
  refine ⟨fun h => ?_, fun hge => ?_⟩
  · by_contra hlt
    rw [interpolateAlwaysAnswers s k d re im u hk hvalid hok hd (Bool.eq_false_iff.2 hlt)] at h
    obtain ⟨-, hresults⟩ := List.cons.inj (congrArg State.response (Host.Outcome.next.inj h))
    cases hresults
  · exact exec_of_error (.interpolate k d re im) hk (rsmpInterpolateAnswer_of_ge ⟨hvalid, hok⟩ hd hge _)

end Sys2Proof.Proofs
end
